-- ==== Sys2Proof/Word.lean ====
section
/-! DEFINITION. Word and byte types of the block (00_scope.md R8, R9, R11): every value is unsigned. -/

namespace Sys2Proof

/-- A Byte, 8 bits unsigned (00_scope.md R11). -/
abbrev Byte := BitVec 8

/-- The request address field ADDR: 32 bits, of which bits 31:24 are ignored (00_scope.md R9, 30_encoding.md R73). -/
abbrev Addr32 := BitVec 32

/-- A chip address: a 24-bit unsigned offset into the flash space (00_scope.md R8 ADDR_BITS, 10_state.md R31). -/
abbrev Addr24 := BitVec 24

/-- The request word REQ64 (30_encoding.md R71, R72). -/
abbrev ReqWord := BitVec 64

end Sys2Proof
end

