-- ==== Sys2Proof/Machine/Flags.lean ====
section
/-! DEFINITION. The one flag, BUSY: bit 0 of a status byte (10_state.md R29). The block does not hold it. -/

namespace Sys2Proof.Machine

/-- BUSY: bit 0 of a status byte; bits 7:1 are not interpreted (10_state.md R28, R29). -/
def busy (status : Byte) : Bool :=
  status.getLsbD 0

/-- `zext_8(rx[0][0])`: 1 if the status byte's BUSY bit is set, else 0 (40_status_wait.md R104, R106). -/
def busyValue (status : Byte) : Byte :=
  if busy status then 1 else 0

/-- `rx[0]`. A step reads it only of a buffer with at least one byte; 0 for an empty one (log entry 12). -/
def firstByte (rx : List Byte) : Byte :=
  rx.headD 0

end Sys2Proof.Machine
end

