-- ==== Sys2Proof/Config.lean ====
section
/-! DEFINITION. The static configuration of the block (00_scope.md R8 to R10), and the free values: constants with no
body for everything the spec leaves open. No proof can see what they are. -/

namespace Sys2Proof

/-- READ_SPEED: FAST is opcode 0x0B with one dummy byte, LOWFREQ is opcode 0x03 (00_scope.md R10). -/
inductive ReadSpeed where
  | fast
  | lowFreq
  deriving DecidableEq, Repr, Inhabited

/-- WE_SEQ: which frames ask for write-enable (00_scope.md R10, 40_status_wait.md R110). -/
inductive WeSeq where
  | wren
  | wrsr
  | wrenWrsr
  deriving DecidableEq, Repr, Inhabited

/-- A fault value of the transport, type TFault (00_scope.md R10, U8). DESIGN CHOICE (log entry 9): the fault values are
names told apart by a number; the block only copies them. -/
structure TFault where
  id : Nat
  deriving DecidableEq, Repr, Inhabited

/-- The configuration parameters of 00_scope.md R10 that a request's script reads. Static: no step writes them. -/
structure Config where
  readSpeed : ReadSpeed
  weSeq     : WeSeq
  wrsrValue : Byte
  prePoll   : Bool
  deriving DecidableEq, Repr

/-- READ_SPEED has no default: OPEN (92_eei_decisions.md D10). -/
opaque Config.openReadSpeed : ReadSpeed

/-- WRSR_VALUE has no default: OPEN (92_eei_decisions.md D11). -/
opaque Config.openWrsrValue : Byte

/-- The configuration of the machine after reset: the spec's defaults (WE_SEQ = WREN, PRE_POLL = false), and the two
OPEN parameters as constants with no body (00_scope.md R10). -/
def Config.machine : Config :=
  { readSpeed := Config.openReadSpeed, weSeq := .wren, wrsrValue := Config.openWrsrValue, prePoll := false }

/-- Free value: whether, and with what value, the transport faults the transaction with this number (U8: "a choice of
the environment"). Used where no answer is listed. -/
opaque Config.freeFault : Nat → Option TFault

/-- Free value: a byte the transport delivers in a transaction (its number, then how many bytes are still to come). Used
where no byte is listed (U1 to U5, U7, U9, U12, U15: any value). -/
opaque Config.freeByte : Nat → Nat → Byte

/-- Free value: `resp.fault_e` where it is unspecified (10_state.md R27, R34; 60_exceptions.md R172). -/
opaque Config.freeFaultE : Nat → TFault

/-- Free value: `resp.fault_step` where it is unspecified (10_state.md R27, R34; 60_exceptions.md R172). -/
opaque Config.freeFaultStep : Nat → BitVec 3

/-- Free value: the whole of `req` after a reset of a running block (10_state.md R34, 70_reset_and_hazards.md R190). -/
opaque Config.freeReqWord : Nat → ReqWord

/-- Free value: `resp.rc` after a reset of a running block (10_state.md R34). -/
opaque Config.freeRc : Nat → BitVec 2

/-- Free value: `resp.value` after a reset of a running block (10_state.md R34). -/
opaque Config.freeValue : Nat → Byte

/-- Free value: `resp.data` after a reset of a running block (10_state.md R34). -/
opaque Config.freeData : Nat → List Byte

/-- DUMMY_VALUE, the dummy byte of the fast read (00_scope.md R9). -/
def Config.dummyValue : Byte := 0x00

/-- SEQ_STEPS_MAX: the longest script has six steps (00_scope.md R9). -/
def Config.seqStepsMax : Nat := 6

/-- The longest byte result: LEN_BITS = 16 (00_scope.md R9). -/
def Config.maxBytes : Nat := 65535

/-- DEVICE_ID_LEN (00_scope.md R8). -/
def Config.deviceIdLen : Nat := 2

/-- UNIQUE_ID_LEN (00_scope.md R8). -/
def Config.uniqueIdLen : Nat := 8

end Sys2Proof
end

