-- ==== Sys2Proof/Syntax.lean ====
section
/-! DEFINITION. The instructions: one constructor for each row of spec/opcode_table.json, 16 request rows
(30_encoding.md R74) and 14 chip-frame rows (R80), and the shapes they are encoded in. -/

namespace Sys2Proof

/-- The three operand fields of a request word (30_encoding.md R71). A request latches all three (10_state.md R22) and
reads only those of its own rule (R77), so every request constructor carries them. -/
structure Operands where
  data : Byte
  len  : BitVec 16
  addr : Addr32
  deriving DecidableEq, Repr

/-- The fields of a request word, and the latched request `req` (30_encoding.md R71, 10_state.md R22). -/
structure Request where
  op   : BitVec 8
  data : Byte
  len  : BitVec 16
  addr : Addr32
  deriving DecidableEq, Repr

/-- The kind of a transaction: `T.send` or `T.send_read` (10_state.md R25, 20_memory.md R44, R46). The block issues no
`T.read` (R45). -/
inductive TxKind where
  | send
  | sendRead
  deriving DecidableEq, Repr

/-- A frame as a script step holds it: `FRAME(kind, tx, n, keep)` (10_state.md R25). `n` is the receive count. -/
structure Frame where
  kind : TxKind
  tx   : List Byte
  n    : Nat
  keep : Bool
  deriving DecidableEq, Repr

/-- One constructor for each row of spec/opcode_table.json. The first sixteen are the requests, in the order of their OP
values; the rest, `frame…`, are the chip frames. -/
inductive Instr where
  -- requests (30_encoding.md R74)
  | readStatus (f : Operands)
  | isBusy (f : Operands)
  | wait (f : Operands)
  | poll (f : Operands)
  | enableWrite (f : Operands)
  | readByte (f : Operands)
  | readBytes (f : Operands)
  | writeByte (f : Operands)
  | chipErase (f : Operands)
  | erase4kBlock (f : Operands)
  | erase32kBlock (f : Operands)
  | erase64kBlock (f : Operands)
  | sleep (f : Operands)
  | wakeup (f : Operands)
  | readDeviceId (f : Operands)
  | readUniqueId (f : Operands)
  -- chip frames (30_encoding.md R79, R80)
  | frameStatusRead
  | frameStatusWrite (d : Byte)
  | frameWriteEnable
  | frameBlockErase4k (a : Addr24)
  | frameBlockErase32k (a : Addr24)
  | frameBlockErase64k (a : Addr24)
  | frameChipErase
  | frameBytePageProgram (a : Addr24) (d : Byte)
  | frameArrayRead (a : Addr24) (n : BitVec 16)
  | frameArrayReadLowFreq (a : Addr24) (n : BitVec 16)
  | frameIdRead
  | frameMacRead
  | frameSleep
  | frameWake
  deriving DecidableEq, Repr

/-- What an instruction is encoded as: a request word (host side) or a frame (chip side). The two encodings are separate
spaces (30_encoding.md, opening paragraph). -/
inductive Code where
  | request (w : ReqWord)
  | frame (f : Frame)
  deriving DecidableEq, Repr

end Sys2Proof
end

