-- ==== Sys2Proof/WellFormed.lean ====
section
/-! DEFINITION. Which instructions the encodings admit. Every request is well formed: each field takes every value of its
width (30_encoding.md R73, R76, R77). A block-erase frame carries an address aligned to its granularity
(spec/opcode_table.json, 42_program_erase.md R137). -/

namespace Sys2Proof

/-- The low `k` bits of a chip address are clear. -/
def Addr24.lowClear (k : Nat) (a : Addr24) : Bool :=
  a.toNat % 2 ^ k == 0

/-- The well-formedness check of an instruction. -/
def Instr.wellFormed : Instr → Bool
  | .readStatus _ => true
  | .isBusy _ => true
  | .wait _ => true
  | .poll _ => true
  | .enableWrite _ => true
  | .readByte _ => true
  | .readBytes _ => true
  | .writeByte _ => true
  | .chipErase _ => true
  | .erase4kBlock _ => true
  | .erase32kBlock _ => true
  | .erase64kBlock _ => true
  | .sleep _ => true
  | .wakeup _ => true
  | .readDeviceId _ => true
  | .readUniqueId _ => true
  | .frameStatusRead => true
  | .frameStatusWrite _ => true
  | .frameWriteEnable => true
  | .frameBlockErase4k a => Addr24.lowClear 12 a
  | .frameBlockErase32k a => Addr24.lowClear 15 a
  | .frameBlockErase64k a => Addr24.lowClear 16 a
  | .frameChipErase => true
  | .frameBytePageProgram _ _ => true
  | .frameArrayRead _ _ => true
  | .frameArrayReadLowFreq _ _ => true
  | .frameIdRead => true
  | .frameMacRead => true
  | .frameSleep => true
  | .frameWake => true

/-- The sixteen requests (30_encoding.md R74). -/
def Instr.isRequest : Instr → Bool
  | .readStatus _ => true
  | .isBusy _ => true
  | .wait _ => true
  | .poll _ => true
  | .enableWrite _ => true
  | .readByte _ => true
  | .readBytes _ => true
  | .writeByte _ => true
  | .chipErase _ => true
  | .erase4kBlock _ => true
  | .erase32kBlock _ => true
  | .erase64kBlock _ => true
  | .sleep _ => true
  | .wakeup _ => true
  | .readDeviceId _ => true
  | .readUniqueId _ => true
  | .frameStatusRead => false
  | .frameStatusWrite _ => false
  | .frameWriteEnable => false
  | .frameBlockErase4k _ => false
  | .frameBlockErase32k _ => false
  | .frameBlockErase64k _ => false
  | .frameChipErase => false
  | .frameBytePageProgram _ _ => false
  | .frameArrayRead _ _ => false
  | .frameArrayReadLowFreq _ _ => false
  | .frameIdRead => false
  | .frameMacRead => false
  | .frameSleep => false
  | .frameWake => false

end Sys2Proof
end

