-- ==== Sys2Proof/Decode.lean ====
section
/-! DEFINITION. The two encodings (30_encoding.md): the request word REQ64 and the chip frame. A total decoder that rejects
by name, and after it the encoder, both written from the tables R71, R74, R79 and R80. -/

namespace Sys2Proof

/-- Why a word or a frame is not an instruction. -/
inductive DecodeError where
  /-- OP 0x00 or 0x11 to 0xFF (30_encoding.md R78). -/
  | reservedOp (op : BitVec 8)
  /-- A frame with no bytes: every format of R79 begins with the opcode byte. -/
  | emptyFrame
  /-- The first byte is not one of the 14 chip opcodes (R80, R81). -/
  | unknownChipOpcode (opc : Byte)
  /-- The number of tx bytes is not that of the opcode's format (R79). -/
  | wrongFrameLength (opc : Byte)
  /-- The transaction kind, the receive count or the keep flag is not that of the opcode's row (R79, R80). -/
  | wrongTransaction (opc : Byte)
  /-- The dummy byte of a fast read is not 0x00 (R79). -/
  | wrongDummy (z : Byte)
  /-- A block-erase frame's address is not aligned to its granularity (42_program_erase.md R137). -/
  | unalignedErase (opc : Byte) (a : Addr24)
  deriving DecidableEq, Repr

/-! ### Request words (R71 to R78) -/

/-- The fields of a request word: OP 7:0, DATA 15:8, LEN 31:16, ADDR 63:32 (30_encoding.md R71). -/
def Request.ofWord (w : ReqWord) : Request :=
  { op := w.extractLsb' 0 8, data := w.extractLsb' 8 8, len := w.extractLsb' 16 16, addr := w.extractLsb' 32 32 }

/-- The request word with these fields (30_encoding.md R71). -/
def Request.toWord (r : Request) : ReqWord :=
  r.addr ++ r.len ++ r.data ++ r.op

/-- The operand fields of a request. -/
def Request.operands (r : Request) : Operands :=
  { data := r.data, len := r.len, addr := r.addr }

/-- The request with OP value `op` and these operand fields. -/
def Operands.request (op : BitVec 8) (f : Operands) : Request :=
  { op := op, data := f.data, len := f.len, addr := f.addr }

/-- The OP decoder: exact match on all 8 bits (30_encoding.md R74); any other value is reserved (R78). -/
def decodeOp (op : BitVec 8) (f : Operands) : Except DecodeError Instr :=
  match op with
  | 0x01#8 => .ok (.readStatus f)
  | 0x02#8 => .ok (.isBusy f)
  | 0x03#8 => .ok (.wait f)
  | 0x04#8 => .ok (.poll f)
  | 0x05#8 => .ok (.enableWrite f)
  | 0x06#8 => .ok (.readByte f)
  | 0x07#8 => .ok (.readBytes f)
  | 0x08#8 => .ok (.writeByte f)
  | 0x09#8 => .ok (.chipErase f)
  | 0x0A#8 => .ok (.erase4kBlock f)
  | 0x0B#8 => .ok (.erase32kBlock f)
  | 0x0C#8 => .ok (.erase64kBlock f)
  | 0x0D#8 => .ok (.sleep f)
  | 0x0E#8 => .ok (.wakeup f)
  | 0x0F#8 => .ok (.readDeviceId f)
  | 0x10#8 => .ok (.readUniqueId f)
  | _ => .error (.reservedOp op)

/-- The instruction a latched request stands for. -/
def Request.decode (r : Request) : Except DecodeError Instr :=
  decodeOp r.op r.operands

/-- The request decoder: one 64-bit word a request (30_encoding.md R72). -/
def decodeRequest (w : ReqWord) : Except DecodeError Instr :=
  (Request.ofWord w).decode

/-! ### Address bytes (00_scope.md R12) -/

/-- `A(a)`: three bytes, most significant first (00_scope.md R12, 20_memory.md R40). -/
def addrBytes (a : Addr24) : List Byte :=
  [a.extractLsb' 16 8, a.extractLsb' 8 8, a.extractLsb' 0 8]

/-- The chip address that three address bytes, most significant first, stand for. -/
def addrOfBytes (a2 a1 a0 : Byte) : Addr24 :=
  a2 ++ a1 ++ a0

/-! ### Frame formats (R79) -/

/-- Format C: the opcode alone. -/
def Format.c (opc : Byte) : Frame :=
  { kind := .send, tx := [opc], n := 0, keep := false }

/-- Format CR(n): the opcode, then n bytes received. -/
def Format.cr (opc : Byte) (n : Nat) : Frame :=
  { kind := .sendRead, tx := [opc], n := n, keep := true }

/-- Format CD: the opcode and one data byte. -/
def Format.cd (opc d : Byte) : Frame :=
  { kind := .send, tx := [opc, d], n := 0, keep := false }

/-- Format CA: the opcode and the address bytes. -/
def Format.ca (opc : Byte) (a : Addr24) : Frame :=
  { kind := .send, tx := opc :: addrBytes a, n := 0, keep := false }

/-- Format CAD: the opcode, the address bytes and one data byte. -/
def Format.cad (opc : Byte) (a : Addr24) (d : Byte) : Frame :=
  { kind := .send, tx := opc :: addrBytes a ++ [d], n := 0, keep := false }

/-- Format CAR(n): the opcode and the address bytes, then n bytes received. -/
def Format.car (opc : Byte) (a : Addr24) (n : Nat) : Frame :=
  { kind := .sendRead, tx := opc :: addrBytes a, n := n, keep := true }

/-- Format CAZR(n): the opcode, the address bytes and the dummy byte, then n bytes received. -/
def Format.cazr (opc : Byte) (a : Addr24) (n : Nat) : Frame :=
  { kind := .sendRead, tx := opc :: addrBytes a ++ [Config.dummyValue], n := n, keep := true }

/-! ### The fourteen chip frames (R80) -/

/-- STATUSREAD. -/
def Frame.statusRead : Frame := Format.cr 0x05 1
/-- STATUSWRITE. -/
def Frame.statusWrite (d : Byte) : Frame := Format.cd 0x01 d
/-- WRITEENABLE. -/
def Frame.writeEnable : Frame := Format.c 0x06
/-- BLOCKERASE 4K. -/
def Frame.blockErase4k (a : Addr24) : Frame := Format.ca 0x20 a
/-- BLOCKERASE 32K. -/
def Frame.blockErase32k (a : Addr24) : Frame := Format.ca 0x52 a
/-- BLOCKERASE 64K. -/
def Frame.blockErase64k (a : Addr24) : Frame := Format.ca 0xD8 a
/-- CHIPERASE. -/
def Frame.chipErase : Frame := Format.c 0x60
/-- BYTEPAGEPROGRAM. -/
def Frame.bytePageProgram (a : Addr24) (d : Byte) : Frame := Format.cad 0x02 a d
/-- ARRAYREAD (fast). -/
def Frame.arrayRead (a : Addr24) (n : Nat) : Frame := Format.cazr 0x0B a n
/-- ARRAYREAD-LOWFREQ. -/
def Frame.arrayReadLowFreq (a : Addr24) (n : Nat) : Frame := Format.car 0x03 a n
/-- IDREAD. -/
def Frame.idRead : Frame := Format.cr 0x9F Config.deviceIdLen
/-- MACREAD. -/
def Frame.macRead : Frame := Format.cr 0x4B Config.uniqueIdLen
/-- SLEEP. -/
def Frame.sleep : Frame := Format.c 0xB9
/-- WAKE. -/
def Frame.wake : Frame := Format.c 0xAB

/-! ### The frame decoder -/

/-- Accept `i` if the frame is a `send` (R80's transaction column). -/
def Frame.asSend (f : Frame) (opc : Byte) (i : Instr) : Except DecodeError Instr :=
  if f.kind = .send ∧ f.n = 0 ∧ f.keep = false then .ok i else .error (.wrongTransaction opc)

/-- Accept `i` if the frame is a `send_read` of exactly `n` bytes (R80's transaction column). -/
def Frame.asRead (f : Frame) (opc : Byte) (n : Nat) (i : Instr) : Except DecodeError Instr :=
  if f.kind = .sendRead ∧ f.n = n ∧ f.keep = true then .ok i else .error (.wrongTransaction opc)

/-- A block erase, whose address must be aligned to `2 ^ k` (42_program_erase.md R137). -/
def Frame.asErase (f : Frame) (opc : Byte) (k : Nat) (a : Addr24) (i : Instr) : Except DecodeError Instr :=
  if Addr24.lowClear k a then f.asSend opc i else .error (.unalignedErase opc a)

/-- The frame decoder: the first byte selects the row of R80, the rest must have the row's format (R79). -/
def decodeFrame (f : Frame) : Except DecodeError Instr :=
  match f.tx with
  | [] => .error .emptyFrame
  | opc :: rest =>
    match opc with
    | 0x05#8 => match rest with
      | [] => f.asRead opc 1 .frameStatusRead
      | _ => .error (.wrongFrameLength opc)
    | 0x01#8 => match rest with
      | [d] => f.asSend opc (.frameStatusWrite d)
      | _ => .error (.wrongFrameLength opc)
    | 0x06#8 => match rest with
      | [] => f.asSend opc .frameWriteEnable
      | _ => .error (.wrongFrameLength opc)
    | 0x20#8 => match rest with
      | [a2, a1, a0] => f.asErase opc 12 (addrOfBytes a2 a1 a0) (.frameBlockErase4k (addrOfBytes a2 a1 a0))
      | _ => .error (.wrongFrameLength opc)
    | 0x52#8 => match rest with
      | [a2, a1, a0] => f.asErase opc 15 (addrOfBytes a2 a1 a0) (.frameBlockErase32k (addrOfBytes a2 a1 a0))
      | _ => .error (.wrongFrameLength opc)
    | 0xD8#8 => match rest with
      | [a2, a1, a0] => f.asErase opc 16 (addrOfBytes a2 a1 a0) (.frameBlockErase64k (addrOfBytes a2 a1 a0))
      | _ => .error (.wrongFrameLength opc)
    | 0x60#8 => match rest with
      | [] => f.asSend opc .frameChipErase
      | _ => .error (.wrongFrameLength opc)
    | 0x02#8 => match rest with
      | [a2, a1, a0, d] => f.asSend opc (.frameBytePageProgram (addrOfBytes a2 a1 a0) d)
      | _ => .error (.wrongFrameLength opc)
    | 0x0B#8 => match rest with
      | [a2, a1, a0, z] =>
        if z ≠ Config.dummyValue then .error (.wrongDummy z)
        else if f.n ≤ Config.maxBytes then f.asRead opc f.n (.frameArrayRead (addrOfBytes a2 a1 a0) (BitVec.ofNat 16 f.n))
        else .error (.wrongTransaction opc)
      | _ => .error (.wrongFrameLength opc)
    | 0x03#8 => match rest with
      | [a2, a1, a0] =>
        if f.n ≤ Config.maxBytes then
          f.asRead opc f.n (.frameArrayReadLowFreq (addrOfBytes a2 a1 a0) (BitVec.ofNat 16 f.n))
        else .error (.wrongTransaction opc)
      | _ => .error (.wrongFrameLength opc)
    | 0x9F#8 => match rest with
      | [] => f.asRead opc 2 .frameIdRead
      | _ => .error (.wrongFrameLength opc)
    | 0x4B#8 => match rest with
      | [] => f.asRead opc 8 .frameMacRead
      | _ => .error (.wrongFrameLength opc)
    | 0xB9#8 => match rest with
      | [] => f.asSend opc .frameSleep
      | _ => .error (.wrongFrameLength opc)
    | 0xAB#8 => match rest with
      | [] => f.asSend opc .frameWake
      | _ => .error (.wrongFrameLength opc)
    | _ => .error (.unknownChipOpcode opc)

/-- The decoder over both encodings. -/
def decode : Code → Except DecodeError Instr
  | .request w => decodeRequest w
  | .frame f => decodeFrame f

/-! ### The encoder -/

/-- The encoder, written from the tables of R74 (OP values) and R80 (chip frames). -/
def encode : Instr → Code
  | .readStatus f => .request (f.request 0x01).toWord
  | .isBusy f => .request (f.request 0x02).toWord
  | .wait f => .request (f.request 0x03).toWord
  | .poll f => .request (f.request 0x04).toWord
  | .enableWrite f => .request (f.request 0x05).toWord
  | .readByte f => .request (f.request 0x06).toWord
  | .readBytes f => .request (f.request 0x07).toWord
  | .writeByte f => .request (f.request 0x08).toWord
  | .chipErase f => .request (f.request 0x09).toWord
  | .erase4kBlock f => .request (f.request 0x0A).toWord
  | .erase32kBlock f => .request (f.request 0x0B).toWord
  | .erase64kBlock f => .request (f.request 0x0C).toWord
  | .sleep f => .request (f.request 0x0D).toWord
  | .wakeup f => .request (f.request 0x0E).toWord
  | .readDeviceId f => .request (f.request 0x0F).toWord
  | .readUniqueId f => .request (f.request 0x10).toWord
  | .frameStatusRead => .frame .statusRead
  | .frameStatusWrite d => .frame (.statusWrite d)
  | .frameWriteEnable => .frame .writeEnable
  | .frameBlockErase4k a => .frame (.blockErase4k a)
  | .frameBlockErase32k a => .frame (.blockErase32k a)
  | .frameBlockErase64k a => .frame (.blockErase64k a)
  | .frameChipErase => .frame .chipErase
  | .frameBytePageProgram a d => .frame (.bytePageProgram a d)
  | .frameArrayRead a n => .frame (.arrayRead a n.toNat)
  | .frameArrayReadLowFreq a n => .frame (.arrayReadLowFreq a n.toNat)
  | .frameIdRead => .frame .idRead
  | .frameMacRead => .frame .macRead
  | .frameSleep => .frame .sleep
  | .frameWake => .frame .wake

/-! ### Words numbered as spec/opcode_table.json numbers them -/

/-- The first `k` bytes of a table word, the least significant byte first (it is the first byte sent). -/
def tableBytes : Nat → Nat → List Byte
  | 0, _ => []
  | k + 1, w => BitVec.ofNat 8 w :: tableBytes k (w / 256)

/-- The frame a table row's bits stand for: the opcode byte selects the number of tx bytes and the transaction (R79,
R80); operand bytes the word does not reach are 0, and an array read's receive count, which has no bits, is 0. -/
def tableFrame (w : Nat) : Frame :=
  match BitVec.ofNat 8 w with
  | 0x05#8 => { kind := .sendRead, tx := tableBytes 1 w, n := 1, keep := true }
  | 0x01#8 => { kind := .send, tx := tableBytes 2 w, n := 0, keep := false }
  | 0x20#8 => { kind := .send, tx := tableBytes 4 w, n := 0, keep := false }
  | 0x52#8 => { kind := .send, tx := tableBytes 4 w, n := 0, keep := false }
  | 0xD8#8 => { kind := .send, tx := tableBytes 4 w, n := 0, keep := false }
  | 0x02#8 => { kind := .send, tx := tableBytes 5 w, n := 0, keep := false }
  | 0x0B#8 => { kind := .sendRead, tx := tableBytes 5 w, n := 0, keep := true }
  | 0x03#8 => { kind := .sendRead, tx := tableBytes 4 w, n := 0, keep := true }
  | 0x9F#8 => { kind := .sendRead, tx := tableBytes 1 w, n := 2, keep := true }
  | 0x4B#8 => { kind := .sendRead, tx := tableBytes 1 w, n := 8, keep := true }
  | _ => { kind := .send, tx := tableBytes 1 w, n := 0, keep := false }

/-- The encoded form of `nbits` bits numbered as the opcode table numbers them: a row of 64 bits is a request word, a
shorter one a chip frame (spec/opcode_table.json: formats REQ64 and FRAME8). Bits above `nbits` are 0. -/
def tableCode (nbits w : Nat) : Code :=
  if nbits = 64 then .request (BitVec.ofNat 64 w) else .frame (tableFrame (w % 2 ^ nbits))

/-- The instruction the decoder reads from a table word. -/
def decodeTableWord (nbits w : Nat) : Option Instr :=
  match decode (tableCode nbits w) with
  | .ok i => some i
  | .error _ => none

end Sys2Proof
end

