-- ==== Sys2Proof/Machine/Operands.lean ====
section
/-! DEFINITION. The address encoder (30_encoding.md R83): truncate, align down for block erases, split. The split is
`addrBytes` of Decode.lean. -/

namespace Sys2Proof.Machine

/-- Stage 1: the chip address is the low 24 bits of ADDR; bits 31:24 are ignored (30_encoding.md R73). -/
def chipAddr (a : Addr32) : Addr24 :=
  a.extractLsb' 0 24

/-- Stage 2: `align(a24, g) = a24 & (0xFFFFFF & ~(g - 1))` (42_program_erase.md R137). -/
def align (a : Addr24) (g : Nat) : Addr24 :=
  a &&& (0xFFFFFF#24 &&& ~~~(BitVec.ofNat 24 (g - 1)))

/-- The erase granularities (00_scope.md R8). -/
def granularity4k : Nat := 4096
def granularity32k : Nat := 32768
def granularity64k : Nat := 65536

end Sys2Proof.Machine
end

