-- ==== Sys2Proof/Machine/State.lean ====
section
/-! DEFINITION. The state of the block (10_state.md R21), the environment's inputs and the recorded observation, all plain
data; the reset state (R34); the reasons a step can stop. -/

namespace Sys2Proof.Machine

/-- The sequencer states (10_state.md R24). The fourth 2-bit value, 3, is never written. -/
inductive SeqState where
  | idle
  | awaitingNotBusy
  | issuing
  deriving DecidableEq, Repr

/-- The 2-bit encoding of `st` (10_state.md R24). -/
def SeqState.bits : SeqState → BitVec 2
  | .idle => 0
  | .awaitingNotBusy => 1
  | .issuing => 2

/-- Response code OK (60_exceptions.md R170). -/
abbrev rcOk : BitVec 2 := 0
/-- Response code TRANSPORT_FAULT (60_exceptions.md R170). -/
abbrev rcTransportFault : BitVec 2 := 1
/-- Response code ILLEGAL_REQUEST (60_exceptions.md R170). -/
abbrev rcIllegalRequest : BitVec 2 := 2
/-- Response code 3: reserved, never written (60_exceptions.md R170, U10). -/
abbrev rcReserved : BitVec 2 := 3

/-- The response register (10_state.md R27). -/
structure Response where
  valid     : Bool
  rc        : BitVec 2
  value     : Byte
  data      : List Byte
  faultE    : TFault
  faultStep : BitVec 3
  deriving DecidableEq, Repr

/-- What the transport answers: `ok(rx)` (no bytes for a `send`) or `fault(e)` (20_memory.md R44, R46). -/
inductive Answer where
  | ok (rx : List Byte)
  | fault (e : TFault)
  deriving DecidableEq, Repr

/-- One transport transaction with its outcome (00_scope.md R14). -/
structure Transaction where
  kind   : TxKind
  tx     : List Byte
  n      : Nat
  answer : Answer
  deriving DecidableEq, Repr

/-- A typed result as the host sees it: `OK v d`, `TF(e, k)` or `ILL` (95_test_vectors.md, 10_state.md R27). -/
inductive Reply where
  | ok (value : Byte) (data : List Byte)
  | transportFault (e : TFault) (k : BitVec 3)
  | illegalRequest
  deriving DecidableEq, Repr

/-- One entry of the observation: the transactions and the responses (92_eei_decisions.md D26), and the resets, which are
the host's own. -/
inductive Event where
  | transaction (t : Transaction)
  | reply (r : Reply)
  | reset
  deriving DecidableEq, Repr

/-- The machine. The first five fields are the block's whole state (10_state.md R21), `cfg` is its static configuration
(00_scope.md R10, 10_state.md R30), the others are the model's own: the environment's inputs, the counter the free values
of Config are applied to, and the observation. -/
structure State where
  /-- The sequencer state (R24). -/
  st        : SeqState
  /-- The latched request (R22). -/
  req       : Request
  /-- The step pointer, 3 bits (R26). -/
  sp        : BitVec 3
  /-- The receive buffer (R32, R35). -/
  rx        : List Byte
  /-- The response register (R27). -/
  resp      : Response
  /-- The static configuration; no step writes it (R30). -/
  cfg       : Config
  /-- Request words the requester holds, next first (20_memory.md R50). -/
  requests  : List ReqWord
  /-- The reset input at the coming steps, next first; an empty list is a line not asserted again (R191). -/
  resetLine : List Bool
  /-- The transport's answers fixed in advance, next first (00_scope.md R16, mock transport). -/
  answers   : List Answer
  /-- How many draws of free values there have been. -/
  draws     : Nat
  /-- The observation, oldest first (R14, D26). -/
  trace     : List Event
  deriving DecidableEq, Repr

/-- Why the machine stops. No run from a state that meets the machine's invariant (Safety.lean) reaches either. -/
inductive Fault where
  /-- Raised by a step, or by a chip frame, when a request is active and its latched OP is reserved: R100 never activates
  such a request and the spec gives it no script. A stuck state; safe. -/
  | activeReservedOp
  /-- Raised by a step, or by a chip frame, when a request is active and the step pointer is at or past the end of its
  script: R26 says "sp never exceeds len(script)" and R101 ends the request when it reaches it. A stuck state; safe. -/
  | noScriptStep
  deriving DecidableEq, Repr

/-- Why an instruction has no meaning. -/
inductive Refusal where
  /-- An instruction whose meaning is not written yet; no arm of exec answers it. Safe. -/
  | notModelled (mnemonic : String)
  deriving DecidableEq, Repr

/-- The block right after reset (10_state.md R34): st IDLE, sp 0, rx empty, resp.valid 0. R34 leaves `req` and the other
response fields unspecified: zero, and empty, by log entry 1 (DESIGN CHOICE). Nothing is presented, nothing is answered,
the reset line is not asserted (log entries 3 to 7). -/
def State.reset : State where
  st        := .idle
  req       := { op := 0, data := 0, len := 0, addr := 0 }
  sp        := 0
  rx        := []
  resp      := { valid := false, rc := 0, value := 0, data := [], faultE := { id := 0 }, faultStep := 0 }
  cfg       := Config.machine
  requests  := []
  resetLine := []
  answers   := []
  draws     := 0
  trace     := []

end Sys2Proof.Machine
end

