-- ==== Sys2Proof/Machine/Ops.lean ====
section
/-! DEFINITION. The named operations every request runs on: the transport transaction (20_memory.md R44 to R49), ending a
request (60_exceptions.md R171, R172, R175), the sequencer's accept, step, poll and completion (40_status_wait.md R100 to
R102), and reset (70_reset_and_hazards.md R190, R191). -/

namespace Sys2Proof.Machine

/-! ### Scripts -/

/-- A step of a script (10_state.md R25). -/
inductive ScriptStep where
  | frame (f : Frame)
  | pollLoop
  deriving DecidableEq, Repr

/-- What a request's rule gives: its script, and the value and data of its OK response as functions of `rx` (R25, R101). -/
structure Plan where
  script : List ScriptStep
  value  : List Byte → Byte
  data   : List Byte → List Byte

/-- "Where a rule gives none, they are 0 and empty" (40_status_wait.md R101). -/
def noValue : List Byte → Byte := fun _ => 0
def noData : List Byte → List Byte := fun _ => []

/-- R24: `st` of an active request whose script's step `k` is next. -/
def seqStateAt (script : List ScriptStep) (k : Nat) : SeqState :=
  match script[k]? with
  | some .pollLoop => .awaitingNotBusy
  | _ => .issuing

/-! ### The transport -/

/-- Exactly `n` received bytes: the answer's bytes in order, free bytes where it has too few (20_memory.md R46; log entry
5). `d` numbers the transaction. -/
def receive (d : Nat) : Nat → List Byte → List Byte
  | 0, _ => []
  | n + 1, [] => Config.freeByte d n :: receive d n []
  | n + 1, b :: bs => b :: receive d n bs

/-- The outcome of the next transaction when it receives `n` bytes: the next listed answer, or a free one. A `send`
receives none (20_memory.md R44, R46). -/
def State.nextAnswer (s : State) (n : Nat) : Answer :=
  match s.answers with
  | .ok bytes :: _ => .ok (receive s.draws n bytes)
  | .fault e :: _ => .fault e
  | [] => match Config.freeFault s.draws with
    | some e => .fault e
    | none => .ok (receive s.draws n [])

/-- The state after one transaction: the answer is consumed and the transaction is observed. Nothing of the block changes
during a transaction (20_memory.md R47). -/
def State.transacted (s : State) (kind : TxKind) (tx : List Byte) (n : Nat) : State :=
  { s with
    answers := s.answers.tail
    draws := s.draws + 1
    trace := s.trace ++ [.transaction { kind := kind, tx := tx, n := n, answer := s.nextAnswer n }] }

/-! ### Ending a request: response or exception -/

/-- The response register's new value for a reply. `fault_e` and `fault_step` are unspecified, hence free, unless rc is
TRANSPORT_FAULT (10_state.md R27, 60_exceptions.md R171, R172; log entry 10). -/
def Reply.response (d : Nat) : Reply → Response
  | .ok v dat => { valid := true, rc := rcOk, value := v, data := dat,
                   faultE := Config.freeFaultE d, faultStep := Config.freeFaultStep d }
  | .transportFault e k => { valid := true, rc := rcTransportFault, value := 0, data := [], faultE := e, faultStep := k }
  | .illegalRequest => { valid := true, rc := rcIllegalRequest, value := 0, data := [],
                         faultE := Config.freeFaultE d, faultStep := Config.freeFaultStep d }

/-- Ending a request, with OK or with an error: `resp` is written, the sequencer returns to IDLE, and `req`, `sp` and `rx`
stay as they were (40_status_wait.md R101, 60_exceptions.md R175). The one operation every completion and every
exception goes through. -/
def endRequest (r : Reply) (s : State) : State :=
  { s with
    st := .idle
    resp := r.response s.draws
    draws := s.draws + 1
    trace := s.trace ++ [.reply r] }

/-- `raise TransportFault(e, k)` with k = sp of the faulting step (60_exceptions.md R171). -/
def raiseTransportFault (e : TFault) (s : State) : State :=
  endRequest (.transportFault e s.sp) s

/-- `raise IllegalRequest(op)`: no transaction goes out (60_exceptions.md R172). -/
def raiseIllegalRequest (s : State) : State :=
  endRequest .illegalRequest s

/-! ### The sequencer -/

/-- The next step of the script, or completion when `sp` reaches its end (10_state.md R26, 40_status_wait.md R101). -/
def advanceSp (p : Plan) (s : State) : State :=
  let s1 := { s with sp := s.sp + 1 }
  if s1.sp.toNat = p.script.length then endRequest (.ok (p.value s1.rx) (p.data s1.rx)) s1
  else { s1 with st := seqStateAt p.script s1.sp.toNat }

/-- A FRAME step (40_status_wait.md R101): one transaction; a fault ends the request; the received bytes are kept if
`keep` (10_state.md R35). -/
def frameStep (p : Plan) (f : Frame) (s : State) : State :=
  match s.nextAnswer f.n with
  | .fault e => raiseTransportFault e (s.transacted f.kind f.tx f.n)
  | .ok rx =>
    if f.keep then advanceSp p { s.transacted f.kind f.tx f.n with rx := rx }
    else advanceSp p (s.transacted f.kind f.tx f.n)

/-- One poll of a POLL_LOOP step: `T.send_read([0x05], 1)`; a byte with bit 0 clear leaves the loop, one with bit 0 set
leaves `sp` unchanged (40_status_wait.md R101, R102). -/
def pollStep (p : Plan) (s : State) : State :=
  match s.nextAnswer Frame.statusRead.n with
  | .fault e => raiseTransportFault e (s.transacted Frame.statusRead.kind Frame.statusRead.tx Frame.statusRead.n)
  | .ok rx =>
    if busy (firstByte rx) then s.transacted Frame.statusRead.kind Frame.statusRead.tx Frame.statusRead.n
    else advanceSp p (s.transacted Frame.statusRead.kind Frame.statusRead.tx Frame.statusRead.n)

/-- `step()` of an active request with plan `p` (40_status_wait.md R101). -/
def takeStep (p : Plan) (s : State) : Host.Outcome State Fault Refusal :=
  match p.script[s.sp.toNat]? with
  | some (.frame f) => .next (frameStep p f s)
  | some .pollLoop => .next (pollStep p s)
  | none => .fault .noScriptStep

/-- What accept latches, whatever OP is: `req`, `rx <- []`, `sp <- 0` (40_status_wait.md R100). -/
def latch (r : Request) (s : State) : State :=
  { s with req := r, rx := [], sp := 0 }

/-- `accept(w)` of a legal request: latched and active, with `st` as R24 gives it. No transaction (40_status_wait.md R100). -/
def accept (r : Request) (p : Plan) (s : State) : State :=
  { latch r s with st := seqStateAt p.script 0 }

/-- `accept(w)` of a reserved OP: latched, then IllegalRequest; `st` stays IDLE (40_status_wait.md R100). -/
def acceptIllegal (r : Request) (s : State) : State :=
  raiseIllegalRequest (latch r s)

/-- The meaning of a request `r` with plan `p`: accepted while IDLE (R100); one step of its script while it is the active
request (R101); not taken while another request is active (20_memory.md R50). -/
def runRequest (r : Request) (p : Plan) (s : State) : Host.Outcome State Fault Refusal :=
  match s.st with
  | .idle => .next (accept r p s)
  | .awaitingNotBusy => if s.req = r then takeStep p s else .next s
  | .issuing => if s.req = r then takeStep p s else .next s

/-! ### The write-enable sequence -/

/-- The write-enable frames that WE_SEQ selects (40_status_wait.md R110). -/
def writeEnableFrames (cfg : Config) : List ScriptStep :=
  match cfg.weSeq with
  | .wren => [.frame .writeEnable]
  | .wrsr => [.frame (.statusWrite cfg.wrsrValue)]
  | .wrenWrsr => [.frame .writeEnable, .frame (.statusWrite cfg.wrsrValue)]

/-- `WE(cfg)` (40_status_wait.md R110). -/
def writeEnableSeq (cfg : Config) : List ScriptStep :=
  (if cfg.prePoll then [.pollLoop] else []) ++ writeEnableFrames cfg ++ [.pollLoop]

/-! ### Reset -/

/-- A reset of the block (70_reset_and_hazards.md R190, R191): the active request, if any, is dropped with no response and
no transaction; the configuration is unchanged; what R34 leaves unspecified is free (log entry 11). -/
def blockReset (s : State) : State :=
  { s with
    st := .idle
    req := Request.ofWord (Config.freeReqWord s.draws)
    sp := 0
    rx := []
    resp := { valid := false, rc := Config.freeRc s.draws, value := Config.freeValue s.draws,
              data := Config.freeData s.draws, faultE := Config.freeFaultE s.draws,
              faultStep := Config.freeFaultStep s.draws }
    draws := s.draws + 1
    trace := s.trace ++ [.reset] }

end Sys2Proof.Machine
end

