-- ==== Sys2Proof/Machine/ArrayRead.lean ====
section
/-! DEFINITION. The array reads (41_array_read.md R120 to R122). -/

namespace Sys2Proof.Machine

/-- The frame of `read_cmd(a24, n)`: READ_SPEED selects the opcode (41_array_read.md R120). -/
def readFrame (cfg : Config) (a : Addr24) (n : Nat) : Frame :=
  match cfg.readSpeed with
  | .fast => .arrayRead a n
  | .lowFreq => .arrayReadLowFreq a n

/-- read_byte: one byte, ungated; value and data are the byte (41_array_read.md R121). -/
def planReadByte (cfg : Config) (f : Operands) : Plan :=
  { script := [.frame (readFrame cfg (chipAddr f.addr) 1)], value := firstByte, data := fun rx => [firstByte rx] }

/-- read_bytes: `req.len` bytes in one transaction, ungated; data is rx (41_array_read.md R122, 30_encoding.md R76). -/
def planReadBytes (cfg : Config) (f : Operands) : Plan :=
  { script := [.frame (readFrame cfg (chipAddr f.addr) f.len.toNat)], value := noValue, data := fun rx => rx }

/-- read_byte (R121), OP 0x06. -/
def execReadByte (f : Operands) (s : State) : Host.Outcome State Fault Refusal :=
  runRequest (f.request 0x06) (planReadByte s.cfg f) s

/-- read_bytes (R122), OP 0x07. -/
def execReadBytes (f : Operands) (s : State) : Host.Outcome State Fault Refusal :=
  runRequest (f.request 0x07) (planReadBytes s.cfg f) s

end Sys2Proof.Machine
end

