-- ==== Sys2Proof/Machine/Identify.lean ====
section
/-! DEFINITION. Identification (44_identify.md R160, R161). -/

namespace Sys2Proof.Machine

/-- read_device_id: 2 bytes in received order (44_identify.md R160). -/
def planReadDeviceId : Plan :=
  { script := [.frame .idRead], value := noValue, data := fun rx => rx }

/-- read_unique_id: 8 bytes in received order, no dummy bytes (44_identify.md R161). -/
def planReadUniqueId : Plan :=
  { script := [.frame .macRead], value := noValue, data := fun rx => rx }

/-- read_device_id (R160), OP 0x0F. -/
def execReadDeviceId (f : Operands) (s : State) : Host.Outcome State Fault Refusal :=
  runRequest (f.request 0x0F) planReadDeviceId s

/-- read_unique_id (R161), OP 0x10. -/
def execReadUniqueId (f : Operands) (s : State) : Host.Outcome State Fault Refusal :=
  runRequest (f.request 0x10) planReadUniqueId s

end Sys2Proof.Machine
end

