-- ==== Sys2Proof/Machine/Power.lean ====
section
/-! DEFINITION. Power requests (43_power.md R150, R151). They set the chip's power state; the block has none. -/

namespace Sys2Proof.Machine

/-- sleep: one frame, no poll before or after (43_power.md R150). -/
def planSleep : Plan :=
  { script := [.frame .sleep], value := noValue, data := noData }

/-- wakeup: one frame, no poll before or after (43_power.md R151). -/
def planWakeup : Plan :=
  { script := [.frame .wake], value := noValue, data := noData }

/-- sleep (R150), OP 0x0D. -/
def execSleep (f : Operands) (s : State) : Host.Outcome State Fault Refusal :=
  runRequest (f.request 0x0D) planSleep s

/-- wakeup (R151), OP 0x0E. -/
def execWakeup (f : Operands) (s : State) : Host.Outcome State Fault Refusal :=
  runRequest (f.request 0x0E) planWakeup s

end Sys2Proof.Machine
end

