-- ==== Sys2Proof/Machine/ProgramErase.lean ====
section
/-! DEFINITION. Program and erase (42_program_erase.md R130 to R137), all gated by `WE(cfg)`. -/

namespace Sys2Proof.Machine

/-- write_byte: WE, then the program frame; no poll follows it (42_program_erase.md R130, R131). -/
def planWriteByte (cfg : Config) (f : Operands) : Plan :=
  { script := writeEnableSeq cfg ++ [.frame (.bytePageProgram (chipAddr f.addr) f.data)],
    value := noValue, data := noData }

/-- WE, an erase frame, and the completion wait (42_program_erase.md R131 to R133). -/
def erasePlan (cfg : Config) (f : Frame) : Plan :=
  { script := writeEnableSeq cfg ++ [.frame f, .pollLoop], value := noValue, data := noData }

/-- chip_erase (42_program_erase.md R132). -/
def planChipErase (cfg : Config) : Plan :=
  erasePlan cfg .chipErase

/-- erase_4k_block: `erase_script(0x20, 4096)` (42_program_erase.md R133, R134). -/
def planErase4kBlock (cfg : Config) (f : Operands) : Plan :=
  erasePlan cfg (.blockErase4k (align (chipAddr f.addr) granularity4k))

/-- erase_32k_block: `erase_script(0x52, 32768)` (42_program_erase.md R133, R135). -/
def planErase32kBlock (cfg : Config) (f : Operands) : Plan :=
  erasePlan cfg (.blockErase32k (align (chipAddr f.addr) granularity32k))

/-- erase_64k_block: `erase_script(0xD8, 65536)` (42_program_erase.md R133, R136). -/
def planErase64kBlock (cfg : Config) (f : Operands) : Plan :=
  erasePlan cfg (.blockErase64k (align (chipAddr f.addr) granularity64k))

/-- write_byte (R130), OP 0x08. -/
def execWriteByte (f : Operands) (s : State) : Host.Outcome State Fault Refusal :=
  runRequest (f.request 0x08) (planWriteByte s.cfg f) s

/-- chip_erase (R132), OP 0x09. -/
def execChipErase (f : Operands) (s : State) : Host.Outcome State Fault Refusal :=
  runRequest (f.request 0x09) (planChipErase s.cfg) s

/-- erase_4k_block (R134), OP 0x0A. -/
def execErase4kBlock (f : Operands) (s : State) : Host.Outcome State Fault Refusal :=
  runRequest (f.request 0x0A) (planErase4kBlock s.cfg f) s

/-- erase_32k_block (R135), OP 0x0B. -/
def execErase32kBlock (f : Operands) (s : State) : Host.Outcome State Fault Refusal :=
  runRequest (f.request 0x0B) (planErase32kBlock s.cfg f) s

/-- erase_64k_block (R136), OP 0x0C. -/
def execErase64kBlock (f : Operands) (s : State) : Host.Outcome State Fault Refusal :=
  runRequest (f.request 0x0C) (planErase64kBlock s.cfg f) s

end Sys2Proof.Machine
end

