-- ==== Sys2Proof/Machine/Status.lean ====
section
/-! DEFINITION. The status family and enable_write (40_status_wait.md R103 to R106, R111). -/

namespace Sys2Proof.Machine

/-- read_status: one status read, all 8 bits unchanged (40_status_wait.md R103). -/
def planReadStatus : Plan :=
  { script := [.frame .statusRead], value := firstByte, data := noData }

/-- is_busy: exactly one status read, value bit 0 (40_status_wait.md R104). -/
def planIsBusy : Plan :=
  { script := [.frame .statusRead], value := fun rx => busyValue (firstByte rx), data := noData }

/-- wait: the poll loop alone (40_status_wait.md R105). -/
def planWait : Plan :=
  { script := [.pollLoop], value := noValue, data := noData }

/-- poll: one status read, value 0 done or 1 not-done (40_status_wait.md R106). -/
def planPoll : Plan :=
  { script := [.frame .statusRead], value := fun rx => busyValue (firstByte rx), data := noData }

/-- enable_write: `WE(cfg)` (40_status_wait.md R111). -/
def planEnableWrite (cfg : Config) : Plan :=
  { script := writeEnableSeq cfg, value := noValue, data := noData }

/-- read_status (R103), OP 0x01. -/
def execReadStatus (f : Operands) (s : State) : Host.Outcome State Fault Refusal :=
  runRequest (f.request 0x01) planReadStatus s

/-- is_busy (R104), OP 0x02. -/
def execIsBusy (f : Operands) (s : State) : Host.Outcome State Fault Refusal :=
  runRequest (f.request 0x02) planIsBusy s

/-- wait (R105), OP 0x03. -/
def execWait (f : Operands) (s : State) : Host.Outcome State Fault Refusal :=
  runRequest (f.request 0x03) planWait s

/-- poll (R106), OP 0x04. -/
def execPoll (f : Operands) (s : State) : Host.Outcome State Fault Refusal :=
  runRequest (f.request 0x04) planPoll s

/-- enable_write (R111), OP 0x05. -/
def execEnableWrite (f : Operands) (s : State) : Host.Outcome State Fault Refusal :=
  runRequest (f.request 0x05) (planEnableWrite s.cfg) s

end Sys2Proof.Machine
end

