-- ==== Sys2Proof/Machine/Sequencer.lean ====
section
/-! DEFINITION. The dispatcher (30_encoding.md R82): from a request to its script and response, and the plan of the latched
request, recomputed from `req` and `cfg` (10_state.md R25). -/

namespace Sys2Proof.Machine

/-- The dispatcher: the plan of each request; a chip frame has none (30_encoding.md R82). -/
def planOf (cfg : Config) : Instr → Option Plan
  | .readStatus _ => some planReadStatus
  | .isBusy _ => some planIsBusy
  | .wait _ => some planWait
  | .poll _ => some planPoll
  | .enableWrite _ => some (planEnableWrite cfg)
  | .readByte f => some (planReadByte cfg f)
  | .readBytes f => some (planReadBytes cfg f)
  | .writeByte f => some (planWriteByte cfg f)
  | .chipErase _ => some (planChipErase cfg)
  | .erase4kBlock f => some (planErase4kBlock cfg f)
  | .erase32kBlock f => some (planErase32kBlock cfg f)
  | .erase64kBlock f => some (planErase64kBlock cfg f)
  | .sleep _ => some planSleep
  | .wakeup _ => some planWakeup
  | .readDeviceId _ => some planReadDeviceId
  | .readUniqueId _ => some planReadUniqueId
  | .frameStatusRead => none
  | .frameStatusWrite _ => none
  | .frameWriteEnable => none
  | .frameBlockErase4k _ => none
  | .frameBlockErase32k _ => none
  | .frameBlockErase64k _ => none
  | .frameChipErase => none
  | .frameBytePageProgram _ _ => none
  | .frameArrayRead _ _ => none
  | .frameArrayReadLowFreq _ _ => none
  | .frameIdRead => none
  | .frameMacRead => none
  | .frameSleep => none
  | .frameWake => none

/-- `script(req, cfg)` with its response functions; none where OP is reserved (10_state.md R25). -/
def requestPlan (r : Request) (cfg : Config) : Option Plan :=
  match r.decode with
  | .ok i => planOf cfg i
  | .error _ => none

/-- The step of the script that an active request takes next (40_status_wait.md R101). -/
def State.currentStep (s : State) : Option ScriptStep :=
  match requestPlan s.req s.cfg with
  | some p => p.script[s.sp.toNat]?
  | none => none

end Sys2Proof.Machine
end

