-- ==== Sys2Proof/Machine/Frames.lean ====
section
/-! DEFINITION. The chip-frame rows (30_encoding.md R79, R80): each frame goes out as the current step of the active
request, and its answer is handled as 40_status_wait.md R101 says. What the chip does with it is the chip's. -/

namespace Sys2Proof.Machine

/-- A frame as the current step of the active request. "The block takes no step while no request is active" (R101), so
nothing happens in IDLE. -/
def runFrame (f : Frame) (s : State) : Host.Outcome State Fault Refusal :=
  match s.st with
  | .idle => .next s
  | _ => match requestPlan s.req s.cfg with
    | none => .fault .activeReservedOp
    | some p => match p.script[s.sp.toNat]? with
      | none => .fault .noScriptStep
      | some _ => .next (frameStep p f s)

/-- A status read as the current step: one poll on a POLL_LOOP step, else a FRAME step (R101, R102). -/
def runStatusRead (s : State) : Host.Outcome State Fault Refusal :=
  match s.st with
  | .idle => .next s
  | _ => match requestPlan s.req s.cfg with
    | none => .fault .activeReservedOp
    | some p => match p.script[s.sp.toNat]? with
      | none => .fault .noScriptStep
      | some .pollLoop => .next (pollStep p s)
      | some (.frame _) => .next (frameStep p .statusRead s)

/-- STATUSREAD, 0x05. -/
def execFrameStatusRead (s : State) : Host.Outcome State Fault Refusal :=
  runStatusRead s

/-- STATUSWRITE, 0x01. -/
def execFrameStatusWrite (d : Byte) (s : State) : Host.Outcome State Fault Refusal :=
  runFrame (.statusWrite d) s

/-- WRITEENABLE, 0x06. -/
def execFrameWriteEnable (s : State) : Host.Outcome State Fault Refusal :=
  runFrame .writeEnable s

/-- BLOCKERASE 4K, 0x20. -/
def execFrameBlockErase4k (a : Addr24) (s : State) : Host.Outcome State Fault Refusal :=
  runFrame (.blockErase4k a) s

/-- BLOCKERASE 32K, 0x52. -/
def execFrameBlockErase32k (a : Addr24) (s : State) : Host.Outcome State Fault Refusal :=
  runFrame (.blockErase32k a) s

/-- BLOCKERASE 64K, 0xD8. -/
def execFrameBlockErase64k (a : Addr24) (s : State) : Host.Outcome State Fault Refusal :=
  runFrame (.blockErase64k a) s

/-- CHIPERASE, 0x60. -/
def execFrameChipErase (s : State) : Host.Outcome State Fault Refusal :=
  runFrame .chipErase s

/-- BYTEPAGEPROGRAM, 0x02. -/
def execFrameBytePageProgram (a : Addr24) (d : Byte) (s : State) : Host.Outcome State Fault Refusal :=
  runFrame (.bytePageProgram a d) s

/-- ARRAYREAD, 0x0B. -/
def execFrameArrayRead (a : Addr24) (n : BitVec 16) (s : State) : Host.Outcome State Fault Refusal :=
  runFrame (.arrayRead a n.toNat) s

/-- ARRAYREAD-LOWFREQ, 0x03. -/
def execFrameArrayReadLowFreq (a : Addr24) (n : BitVec 16) (s : State) : Host.Outcome State Fault Refusal :=
  runFrame (.arrayReadLowFreq a n.toNat) s

/-- IDREAD, 0x9F. -/
def execFrameIdRead (s : State) : Host.Outcome State Fault Refusal :=
  runFrame .idRead s

/-- MACREAD, 0x4B. -/
def execFrameMacRead (s : State) : Host.Outcome State Fault Refusal :=
  runFrame .macRead s

/-- SLEEP, 0xB9. -/
def execFrameSleep (s : State) : Host.Outcome State Fault Refusal :=
  runFrame .sleep s

/-- WAKE, 0xAB. -/
def execFrameWake (s : State) : Host.Outcome State Fault Refusal :=
  runFrame .wake s

end Sys2Proof.Machine
end

