-- ==== Sys2Proof/Machine/Dispatch.lean ====
section
/-! DEFINITION. One arm per constructor of Instr. -/

namespace Sys2Proof.Machine

def exec (i : Instr) (s : State) : Host.Outcome State Fault Refusal :=
  match i with
  | .readStatus f => Sys2Proof.Machine.execReadStatus f s
  | .isBusy f => Sys2Proof.Machine.execIsBusy f s
  | .wait f => Sys2Proof.Machine.execWait f s
  | .poll f => Sys2Proof.Machine.execPoll f s
  | .enableWrite f => Sys2Proof.Machine.execEnableWrite f s
  | .readByte f => Sys2Proof.Machine.execReadByte f s
  | .readBytes f => Sys2Proof.Machine.execReadBytes f s
  | .writeByte f => Sys2Proof.Machine.execWriteByte f s
  | .chipErase f => Sys2Proof.Machine.execChipErase f s
  | .erase4kBlock f => Sys2Proof.Machine.execErase4kBlock f s
  | .erase32kBlock f => Sys2Proof.Machine.execErase32kBlock f s
  | .erase64kBlock f => Sys2Proof.Machine.execErase64kBlock f s
  | .sleep f => Sys2Proof.Machine.execSleep f s
  | .wakeup f => Sys2Proof.Machine.execWakeup f s
  | .readDeviceId f => Sys2Proof.Machine.execReadDeviceId f s
  | .readUniqueId f => Sys2Proof.Machine.execReadUniqueId f s
  | .frameStatusRead => Sys2Proof.Machine.execFrameStatusRead s
  | .frameStatusWrite d => Sys2Proof.Machine.execFrameStatusWrite d s
  | .frameWriteEnable => Sys2Proof.Machine.execFrameWriteEnable s
  | .frameBlockErase4k a => Sys2Proof.Machine.execFrameBlockErase4k a s
  | .frameBlockErase32k a => Sys2Proof.Machine.execFrameBlockErase32k a s
  | .frameBlockErase64k a => Sys2Proof.Machine.execFrameBlockErase64k a s
  | .frameChipErase => Sys2Proof.Machine.execFrameChipErase s
  | .frameBytePageProgram a d => Sys2Proof.Machine.execFrameBytePageProgram a d s
  | .frameArrayRead a n => Sys2Proof.Machine.execFrameArrayRead a n s
  | .frameArrayReadLowFreq a n => Sys2Proof.Machine.execFrameArrayReadLowFreq a n s
  | .frameIdRead => Sys2Proof.Machine.execFrameIdRead s
  | .frameMacRead => Sys2Proof.Machine.execFrameMacRead s
  | .frameSleep => Sys2Proof.Machine.execFrameSleep s
  | .frameWake => Sys2Proof.Machine.execFrameWake s

end Sys2Proof.Machine
end

