-- ==== Sys2Proof/Machine/Fetch.lean ====
section
/-! DEFINITION. What the next step runs (40_status_wait.md R100, R101; 20_memory.md R50; 70_reset_and_hazards.md R190,
R191), and how a word of the opcode table is put where the next step runs it. -/

namespace Sys2Proof.Machine

/-- What a step is about to do. -/
inductive Fetched where
  /-- An event of the sequencer that runs no instruction: a reset, an illegal request, or nothing. -/
  | event (t : State)
  /-- The instruction to run, and the state it runs in. -/
  | run (i : Instr) (s : State)
  /-- An active request with a reserved OP. -/
  | stuck

/-- The reset input is asserted at this step. -/
def State.resetAsserted (s : State) : Bool :=
  s.resetLine.headD false

/-- The reset input is sampled once a step. -/
def State.sampled (s : State) : State :=
  { s with resetLine := s.resetLine.tail }

/-- While IDLE: take the next presented word (R100), or do nothing when none is presented ("The block takes no step while
no request is active", R101). -/
def fetchIdle (s : State) : Fetched :=
  match s.requests with
  | [] => .event s
  | w :: rest => match decodeRequest w with
    | .ok i => .run i { s with requests := rest }
    | .error _ => .event (acceptIllegal (Request.ofWord w) { s with requests := rest })

/-- While a request is active: the latched request (R101). No presented word is read (20_memory.md R50). -/
def fetchActive (s : State) : Fetched :=
  match s.req.decode with
  | .ok i => .run i s
  | .error _ => .stuck

/-- What the next step does: a reset, or the request that is accepted or active. -/
def fetch (s : State) : Fetched :=
  if s.resetAsserted then .event (blockReset s.sampled)
  else match s.st with
    | .idle => fetchIdle s.sampled
    | .awaitingNotBusy => fetchActive s.sampled
    | .issuing => fetchActive s.sampled

/-! ### Placing a table word -/

/-- Present request word `w` so that the next step accepts it: the sequencer IDLE, the reset line not asserted. -/
def State.presented (s : State) (w : ReqWord) : State :=
  { s with st := .idle, resetLine := [], requests := w :: s.requests }

/-- A request active at step `k` of its script, so that the next step makes the transaction of that step. -/
def State.activeAt (s : State) (cfg : Config) (r : Request) (k : Nat) : State :=
  { s with
    st := match requestPlan r cfg with
      | some p => seqStateAt p.script k
      | none => .idle
    req := r, sp := BitVec.ofNat 3 k, rx := [], cfg := cfg, resetLine := [] }

/-- A request with these operand fields, the fields it does not read zero. -/
def plainRequest (op : BitVec 8) (a : Addr24) (n : BitVec 16) (d : Byte) : Request :=
  { op := op, data := d, len := n, addr := a.setWidth 32 }

/-- Make frame `i` the next step's transaction: a request whose script has it, active at that step, with the configuration
parameters that select it. -/
def placeInstr (s : State) (i : Instr) : State :=
  let k := (writeEnableSeq s.cfg).length
  match i with
  | .frameStatusRead => s.activeAt s.cfg (plainRequest 0x01 0 0 0) 0
  | .frameStatusWrite d =>
    s.activeAt { s.cfg with weSeq := .wrsr, wrsrValue := d, prePoll := false } (plainRequest 0x05 0 0 0) 0
  | .frameWriteEnable => s.activeAt { s.cfg with weSeq := .wren, prePoll := false } (plainRequest 0x05 0 0 0) 0
  | .frameBlockErase4k a => s.activeAt s.cfg (plainRequest 0x0A a 0 0) k
  | .frameBlockErase32k a => s.activeAt s.cfg (plainRequest 0x0B a 0 0) k
  | .frameBlockErase64k a => s.activeAt s.cfg (plainRequest 0x0C a 0 0) k
  | .frameChipErase => s.activeAt s.cfg (plainRequest 0x09 0 0 0) k
  | .frameBytePageProgram a d => s.activeAt s.cfg (plainRequest 0x08 a 0 d) k
  | .frameArrayRead a n => s.activeAt { s.cfg with readSpeed := .fast } (plainRequest 0x07 a n 0) 0
  | .frameArrayReadLowFreq a n => s.activeAt { s.cfg with readSpeed := .lowFreq } (plainRequest 0x07 a n 0) 0
  | .frameIdRead => s.activeAt s.cfg (plainRequest 0x0F 0 0 0) 0
  | .frameMacRead => s.activeAt s.cfg (plainRequest 0x10 0 0 0) 0
  | .frameSleep => s.activeAt s.cfg (plainRequest 0x0D 0 0 0) 0
  | .frameWake => s.activeAt s.cfg (plainRequest 0x0E 0 0 0) 0
  | .readStatus f => s.presented (f.request 0x01).toWord
  | .isBusy f => s.presented (f.request 0x02).toWord
  | .wait f => s.presented (f.request 0x03).toWord
  | .poll f => s.presented (f.request 0x04).toWord
  | .enableWrite f => s.presented (f.request 0x05).toWord
  | .readByte f => s.presented (f.request 0x06).toWord
  | .readBytes f => s.presented (f.request 0x07).toWord
  | .writeByte f => s.presented (f.request 0x08).toWord
  | .chipErase f => s.presented (f.request 0x09).toWord
  | .erase4kBlock f => s.presented (f.request 0x0A).toWord
  | .erase32kBlock f => s.presented (f.request 0x0B).toWord
  | .erase64kBlock f => s.presented (f.request 0x0C).toWord
  | .sleep f => s.presented (f.request 0x0D).toWord
  | .wakeup f => s.presented (f.request 0x0E).toWord
  | .readDeviceId f => s.presented (f.request 0x0F).toWord
  | .readUniqueId f => s.presented (f.request 0x10).toWord

/-- Put the table word where the next step runs it: a request word is presented, a chip frame becomes the active
request's current step. A word that is no instruction leaves the state, but an illegal request word is presented too. -/
def placeWord (s : State) (nbits w : Nat) : State :=
  match tableCode nbits w with
  | .request v => s.presented v
  | .frame f => match decodeFrame f with
    | .ok i => placeInstr s i
    | .error _ => s

end Sys2Proof.Machine
end

