-- ==== Sys2Proof/Machine/Step.lean ====
section
/-! DEFINITION. One step of the machine: a reset, an accept, or one transaction of the active request (00_scope.md R7). -/

namespace Sys2Proof.Machine

/-- One step. -/
def step (s : State) : Host.Outcome State Fault Refusal :=
  match fetch s with
  | .event t => .next t
  | .run i t => exec i t
  | .stuck => .fault .activeReservedOp

/-- `s` with the opcode-table word stored where the next step runs it. -/
def State.withFetchWord (s : State) (nbits w : Nat) : State :=
  placeWord s nbits w

end Sys2Proof.Machine
end

