-- ==== Sys2Proof/Machine/Assembler.lean ====
section
/-! DEFINITION. The assembler syntax (30_encoding.md R84, R85): from text to request words. It is the host's notation for a
request word, and no step of the block reads it. -/

namespace Sys2Proof.Machine

/-- Why the assembler refuses a line. -/
inductive AsmError where
  /-- No mnemonic of R84. -/
  | unknownMnemonic
  /-- "refuses a wrong number of operands" (R85). -/
  | wrongOperandCount
  /-- "refuses a literal out of its range" (R85). -/
  | literalOutOfRange
  /-- Not an unsigned integer, decimal or `0x` hexadecimal (R85). -/
  | badLiteral
  deriving DecidableEq, Repr

/-- The operands a mnemonic takes (R84). -/
inductive AsmShape where
  | none
  | addr
  | addrLen
  | addrData
  deriving DecidableEq, Repr

/-- The mnemonics with their OP values (R74) and operands (R84). -/
def asmTable : List (String × BitVec 8 × AsmShape) :=
  [("read_status", 0x01, .none), ("is_busy", 0x02, .none), ("wait", 0x03, .none), ("poll", 0x04, .none),
   ("enable_write", 0x05, .none), ("read_byte", 0x06, .addr), ("read_bytes", 0x07, .addrLen),
   ("write_byte", 0x08, .addrData), ("chip_erase", 0x09, .none), ("erase_4k_block", 0x0A, .addr),
   ("erase_32k_block", 0x0B, .addr), ("erase_64k_block", 0x0C, .addr), ("sleep", 0x0D, .none),
   ("wakeup", 0x0E, .none), ("read_device_id", 0x0F, .none), ("read_unique_id", 0x10, .none)]

/-- The row of a mnemonic. -/
def asmLookup (m : List Char) : List (String × BitVec 8 × AsmShape) → Option (BitVec 8 × AsmShape)
  | [] => Option.none
  | (name, row) :: rest => if name.toList = m then some row else asmLookup m rest

/-- ADDR ranges over 0 to 0xFFFFFFFF, DATA over 0 to 0xFF and LEN over 0 to 0xFFFF (R85). -/
def asmInRange (a n d : Nat) : Bool :=
  a < 2 ^ 32 && n < 2 ^ 16 && d < 2 ^ 8

/-- The request word; the fields the request does not read are zero (R85). -/
def asmWord (op : BitVec 8) (a n d : Nat) : Except AsmError ReqWord :=
  if asmInRange a n d then
    .ok (Request.toWord { op := op, data := BitVec.ofNat 8 d, len := BitVec.ofNat 16 n, addr := BitVec.ofNat 32 a })
  else .error .literalOutOfRange

/-- The operand list must have the mnemonic's shape (R84, R85). -/
def asmOperands (op : BitVec 8) : AsmShape → List Nat → Except AsmError ReqWord
  | .none, [] => asmWord op 0 0 0
  | .addr, [a] => asmWord op a 0 0
  | .addrLen, [a, n] => asmWord op a n 0
  | .addrData, [a, d] => asmWord op a 0 d
  | _, _ => .error .wrongOperandCount

/-- One request from its mnemonic and its operand values. -/
def asmRequest (m : List Char) (operands : List Nat) : Except AsmError ReqWord :=
  match asmLookup m asmTable with
  | some (op, shape) => asmOperands op shape operands
  | Option.none => .error .unknownMnemonic

/-! ### Text -/

/-- White space between tokens. -/
def asmBlank (c : Char) : Bool :=
  c == ' ' || c == '\t' || c == '\r'

/-- Without white space at either end. -/
def asmTrim (cs : List Char) : List Char :=
  ((cs.dropWhile asmBlank).reverse.dropWhile asmBlank).reverse

/-- The pieces between separators. -/
def asmSplit (sep : Char) : List Char → List (List Char)
  | [] => [[]]
  | c :: cs =>
    match asmSplit sep cs with
    | [] => [[]]
    | piece :: pieces => if c = sep then [] :: piece :: pieces else (c :: piece) :: pieces

/-- A digit in base 10 or 16. -/
def asmDigit (base : Nat) (c : Char) : Option Nat :=
  let v :=
    if '0' ≤ c ∧ c ≤ '9' then c.toNat - '0'.toNat
    else if 'a' ≤ c ∧ c ≤ 'f' then c.toNat - 'a'.toNat + 10
    else if 'A' ≤ c ∧ c ≤ 'F' then c.toNat - 'A'.toNat + 10
    else base
  if v < base then some v else Option.none

/-- Digits, most significant first. -/
def asmDigits (base : Nat) : Nat → List Char → Option Nat
  | acc, [] => some acc
  | acc, c :: cs => match asmDigit base c with
    | some v => asmDigits base (acc * base + v) cs
    | Option.none => Option.none

/-- An unsigned integer, decimal or `0x` hexadecimal (R85). -/
def asmLiteral (cs : List Char) : Except AsmError Nat :=
  let v := match cs with
    | [] => Option.none
    | '0' :: 'x' :: [] => Option.none
    | '0' :: 'x' :: hex => asmDigits 16 0 hex
    | dec => asmDigits 10 0 dec
  match v with
  | some n => .ok n
  | Option.none => .error .badLiteral

/-- The literals of an operand list. -/
def asmLiterals : List (List Char) → Except AsmError (List Nat)
  | [] => .ok []
  | p :: ps => match asmLiteral (asmTrim p), asmLiterals ps with
    | .ok n, .ok ns => .ok (n :: ns)
    | .error e, _ => .error e
    | _, .error e => .error e

/-- One line: a `;` starts a comment that runs to the end of the line (R84); a line with nothing else holds no request. -/
def asmLine (line : List Char) : Except AsmError (Option ReqWord) :=
  let body := asmTrim (line.takeWhile (· ≠ ';'))
  let m := body.takeWhile (fun c => !asmBlank c)
  let rest := asmTrim (body.dropWhile (fun c => !asmBlank c))
  match body with
  | [] => .ok Option.none
  | _ => match asmLiterals (if rest = [] then [] else asmSplit ',' rest) with
    | .error e => .error e
    | .ok operands => match asmRequest m operands with
      | .ok w => .ok (some w)
      | .error e => .error e

/-- The words of a list of lines, in order. -/
def asmLines : List (List Char) → Except AsmError (List ReqWord)
  | [] => .ok []
  | l :: ls => match asmLine l, asmLines ls with
    | .ok (some w), .ok ws => .ok (w :: ws)
    | .ok Option.none, .ok ws => .ok ws
    | .error e, _ => .error e
    | _, .error e => .error e

/-- A program text: one request a line (R84). -/
def assemble (text : String) : Except AsmError (List ReqWord) :=
  asmLines (asmSplit '\n' text.toList)

end Sys2Proof.Machine
end

