-- ==== Sys2Proof/Safety.lean ====
section
/-! DEFINITION. What counts as a safe state and a safe use of the block: the machine's invariant, the observation read
apart, what a script does against given answers, and the host's duties of 70_reset_and_hazards.md. -/

namespace Sys2Proof.Machine

/-! ### The invariant -/

/-- R24: while a request is active, `st` is that of the script's current step, and there is one. -/
def State.sequencerOk (s : State) : Prop :=
  match s.st with
  | .idle => True
  | .awaitingNotBusy => s.currentStep = some .pollLoop
  | .issuing => ∃ f, s.currentStep = some (.frame f)

/-- R27, R170: a written response has a code that is not reserved, no result unless OK, and at most 65535 bytes. -/
def Response.ok (r : Response) : Prop :=
  r.valid = true →
    r.rc ≠ rcReserved ∧ (r.rc ≠ rcOk → r.value = 0 ∧ r.data = []) ∧ r.data.length ≤ Config.maxBytes

/-- The machine's invariant: `st` is the function of the rest of the state that R24 gives, sp never exceeds the longest
script (R26), rx holds at most 65535 bytes (R32), and the response register is as R27 says. -/
def State.Inv (s : State) : Prop :=
  s.sequencerOk ∧ s.sp.toNat ≤ Config.seqStepsMax ∧ s.rx.length ≤ Config.maxBytes ∧ s.resp.ok

/-- A request is active (40_status_wait.md R101). -/
def State.active (s : State) : Prop := s.st ≠ .idle

/-! ### How a request ended -/

/-- The last request ended with OK, this value and this data (R27, R101). -/
def State.endedOk (t : State) (v : Byte) (d : List Byte) : Prop :=
  t.st = .idle ∧ t.resp.valid = true ∧ t.resp.rc = rcOk ∧ t.resp.value = v ∧ t.resp.data = d

/-- The last request ended with TransportFault(e, k) (60_exceptions.md R171). -/
def State.endedFault (t : State) (e : TFault) (k : BitVec 3) : Prop :=
  t.st = .idle ∧ t.resp.valid = true ∧ t.resp.rc = rcTransportFault ∧ t.resp.value = 0 ∧ t.resp.data = [] ∧
    t.resp.faultE = e ∧ t.resp.faultStep = k

/-- The last request ended with IllegalRequest (60_exceptions.md R172). -/
def State.endedIllegal (t : State) : Prop :=
  t.st = .idle ∧ t.resp.valid = true ∧ t.resp.rc = rcIllegalRequest ∧ t.resp.value = 0 ∧ t.resp.data = []

/-! ### The observation -/

/-- The transactions of an observation, in order. -/
def transactionsOf : List Event → List Transaction
  | [] => []
  | .transaction t :: es => t :: transactionsOf es
  | .reply _ :: es => transactionsOf es
  | .reset :: es => transactionsOf es

/-- The responses of an observation, in order. -/
def repliesOf : List Event → List Reply
  | [] => []
  | .transaction _ :: es => repliesOf es
  | .reply r :: es => r :: repliesOf es
  | .reset :: es => repliesOf es

/-- A transaction of frame `f` that was answered `a`. -/
def answered (f : Frame) (a : Answer) : Transaction :=
  { kind := f.kind, tx := f.tx, n := f.n, answer := a }

/-- The frame a script step sends: a POLL_LOOP polls with the status read (R102). -/
def ScriptStep.sent : ScriptStep → Frame
  | .frame f => f
  | .pollLoop => { kind := .sendRead, tx := [0x05], n := 1, keep := true }

/-! ### A script against given answers (10_state.md R25, R26, 20_memory.md R51) -/

/-- How far a script has come: the transactions made, the step reached, the bytes kept. -/
structure Progress where
  made : List Transaction
  step : Nat
  rx   : List Byte
  deriving DecidableEq, Repr

/-- One transaction made before the rest, which began `k` steps earlier. -/
def Progress.after (t : Transaction) (k : Nat) (p : Progress) : Progress :=
  { made := t :: p.made, step := p.step + k, rx := p.rx }

/-- What a script does against these answers, all ok and of the right lengths; none if the answers do not fit. A FRAME
step takes one answer; a POLL_LOOP step takes answers up to the first that is not busy (R102). -/
def progress : List ScriptStep → List Byte → List Answer → Option Progress
  | _, rx, [] => some { made := [], step := 0, rx := rx }
  | .frame f :: ss, rx, .ok bs :: as =>
    if bs.length = f.n then
      (progress ss (if f.keep then bs else rx) as).map (Progress.after (answered f (.ok bs)) 1)
    else none
  | .pollLoop :: ss, rx, .ok [b] :: as =>
    if b.getLsbD 0 then
      (progress (.pollLoop :: ss) rx as).map (Progress.after (answered ScriptStep.pollLoop.sent (.ok [b])) 0)
    else (progress ss rx as).map (Progress.after (answered ScriptStep.pollLoop.sent (.ok [b])) 1)
  | _, _, _ => none

/-! ### The effect of one step (40_status_wait.md R101) -/

/-- `k` steps of the machine. -/
def run (k : Nat) (s : State) : Host.Outcome State Fault Refusal :=
  Host.Core.run Sys2Proof.core k s

/-- What no step of an active request changes, and the one answer it consumes (10_state.md R22, R30, 20_memory.md R50). -/
def State.settled (s t : State) : Prop :=
  t.req = s.req ∧ t.cfg = s.cfg ∧ t.requests = s.requests ∧ t.resetLine = s.resetLine ∧ t.answers = s.answers.tail

/-- The step is done and the transaction `x` was its own: on to the next step, or the OK response (R26, R101). -/
def State.movedOn (s t : State) (p : Plan) (x : Transaction) : Prop :=
  t.sp = s.sp + 1 ∧
    if t.sp.toNat = p.script.length then
      t.endedOk (p.value t.rx) (p.data t.rx) ∧
        t.trace = s.trace ++ [.transaction x, .reply (.ok (p.value t.rx) (p.data t.rx))]
    else
      t.resp = s.resp ∧ t.trace = s.trace ++ [.transaction x] ∧
        t.st = if p.script[t.sp.toNat]? = some .pollLoop then .awaitingNotBusy else .issuing

/-- The effect of the step `c` of a script with plan `p` (R101): exactly one transaction, and what its answer decides. -/
def State.stepEffect (s t : State) (p : Plan) (c : ScriptStep) : Prop :=
  s.settled t ∧
    match s.nextAnswer c.sent.n with
    | .fault e =>
      t.endedFault e s.sp ∧ t.sp = s.sp ∧ t.rx = s.rx ∧
        t.trace = s.trace ++ [.transaction (answered c.sent (.fault e)), .reply (.transportFault e s.sp)]
    | .ok rx =>
      match c with
      | .frame f =>
        t.rx = (if f.keep then rx else s.rx) ∧ s.movedOn t p (answered f (.ok rx))
      | .pollLoop =>
        t.rx = s.rx ∧
          if (rx.headD 0).getLsbD 0 then
            t.sp = s.sp ∧ t.st = s.st ∧ t.resp = s.resp ∧
              t.trace = s.trace ++ [.transaction (answered c.sent (.ok rx))]
          else s.movedOn t p (answered c.sent (.ok rx))

/-! ### A whole request against given answers -/

/-- WE(cfg), row by row of R110. -/
def weRow (cfg : Config) : List ScriptStep :=
  let wren : ScriptStep := .frame { kind := .send, tx := [0x06], n := 0, keep := false }
  let wrsr : ScriptStep := .frame { kind := .send, tx := [0x01, cfg.wrsrValue], n := 0, keep := false }
  match cfg.prePoll, cfg.weSeq with
  | false, .wren => [wren, .pollLoop]
  | false, .wrsr => [wrsr, .pollLoop]
  | false, .wrenWrsr => [wren, wrsr, .pollLoop]
  | true, .wren => [.pollLoop, wren, .pollLoop]
  | true, .wrsr => [.pollLoop, wrsr, .pollLoop]
  | true, .wrenWrsr => [.pollLoop, wren, wrsr, .pollLoop]

/-- The request with OP `op`, read as `mk`, runs the script `σ` and answers with `value` and `data` of the kept bytes. Its
word decodes to `mk`; from an IDLE block that is presented it, with the reset line quiet: against answers that drive the
script to its end, it makes exactly the script's transactions and then responds OK; against answers that leave it at a step
k, it is still active there with no response; against answers that drive it to step k and then fault, it responds
TransportFault at step k, and nothing more goes out. -/
def runsScript (op : BitVec 8) (mk : Operands → Instr) (σ : Config → Operands → List ScriptStep)
    (value : List Byte → Byte) (data : List Byte → List Byte) : Prop :=
  (∀ w : ReqWord, w.extractLsb' 0 8 = op →
    decode (.request w) = .ok (mk { data := w.extractLsb' 8 8, len := w.extractLsb' 16 16, addr := w.extractLsb' 32 32 })) ∧
  ∀ (s : State) (w : ReqWord) (q : List ReqWord) (as : List Answer) (pg : Progress),
    let f : Operands := { data := w.extractLsb' 8 8, len := w.extractLsb' 16 16, addr := w.extractLsb' 32 32 }
    s.st = .idle → s.resetLine = [] → s.requests = w :: q → w.extractLsb' 0 8 = op →
    progress (σ s.cfg f) [] as = some pg →
      (∀ rest, pg.step = (σ s.cfg f).length → s.answers = as ++ rest →
        ∃ t, run (1 + as.length) s = .next t ∧ t.endedOk (value pg.rx) (data pg.rx) ∧
          t.trace = s.trace ++ pg.made.map .transaction ++ [.reply (.ok (value pg.rx) (data pg.rx))] ∧
          t.req = Request.ofWord w ∧ t.sp.toNat = pg.step ∧ t.rx = pg.rx ∧
          t.cfg = s.cfg ∧ t.requests = q ∧ t.resetLine = [] ∧ t.answers = rest) ∧
      (∀ rest, pg.step < (σ s.cfg f).length → s.answers = as ++ rest →
        ∃ t, run (1 + as.length) s = .next t ∧ t.active ∧ t.resp = s.resp ∧
          t.trace = s.trace ++ pg.made.map .transaction ∧
          t.req = Request.ofWord w ∧ t.sp.toNat = pg.step ∧ t.rx = pg.rx ∧
          t.cfg = s.cfg ∧ t.requests = q ∧ t.resetLine = [] ∧ t.answers = rest) ∧
      (∀ c e rest, (σ s.cfg f)[pg.step]? = some c → s.answers = as ++ .fault e :: rest →
        ∃ t, run (1 + as.length + 1) s = .next t ∧ t.endedFault e (BitVec.ofNat 3 pg.step) ∧
          t.trace = s.trace ++ pg.made.map .transaction ++
            [.transaction (answered c.sent (.fault e)), .reply (.transportFault e (BitVec.ofNat 3 pg.step))] ∧
          t.req = Request.ofWord w ∧ t.sp.toNat = pg.step ∧ t.rx = pg.rx ∧
          t.cfg = s.cfg ∧ t.requests = q ∧ t.resetLine = [] ∧ t.answers = rest)

/-- Chip frame `i` sends exactly the frame `f` as the current step of the active request, and its answer is handled as a
FRAME step's. -/
def sendsFrame (i : Instr) (f : Frame) : Prop :=
  ∀ (s : State) (p : Plan) (c : ScriptStep),
    s.active → requestPlan s.req s.cfg = some p → p.script[s.sp.toNat]? = some c →
    ∃ t, exec i s = .next t ∧ s.stepEffect t p (.frame f)

/-! ### The fields a request reads (30_encoding.md R73 to R77) -/

/-- ADDR is read only by read_byte, read_bytes, write_byte and the three block erases (R71). -/
def readsAddr (op : BitVec 8) : Prop :=
  op = 0x06 ∨ op = 0x07 ∨ op = 0x08 ∨ op = 0x0A ∨ op = 0x0B ∨ op = 0x0C

/-- Two requests that agree on everything the block reads of them: OP, the low 24 address bits where ADDR is read (R73),
LEN for read_bytes (R76), DATA for write_byte (R75). -/
def sameRead (r r' : Request) : Prop :=
  r.op = r'.op ∧ (readsAddr r.op → r.addr.extractLsb' 0 24 = r'.addr.extractLsb' 0 24) ∧
    (r.op = 0x07 → r.len = r'.len) ∧ (r.op = 0x08 → r.data = r'.data)

/-- Two request streams that agree word by word on everything the block reads. -/
def sameReadWords : List ReqWord → List ReqWord → Prop
  | [], [] => True
  | w :: ws, w' :: ws' => sameRead (Request.ofWord w) (Request.ofWord w') ∧ sameReadWords ws ws'
  | [], _ :: _ => False
  | _ :: _, [] => False

/-- Two states that differ at most in the fields no request reads. -/
def State.sameBehaviour (s s' : State) : Prop :=
  sameRead s.req s'.req ∧ sameReadWords s.requests s'.requests ∧
    s' = { s with req := s'.req, requests := s'.requests }

/-! ### The host's view of the chip, and its duties (70_reset_and_hazards.md R192, R200 to R205) -/

/-- What the host may conclude about the chip from the observation alone. -/
inductive ChipView where
  /-- Nothing: after a fault or a reset (R191, R205), or before the first wake. -/
  | unknown
  /-- Awake, and an operation may be in progress (R201). -/
  | maybeBusy
  /-- Awake and not busy: a status read reported BUSY = 0 since the last operation (R53). -/
  | ready
  /-- Asleep, or possibly so: a SLEEP frame has gone out and no WAKE since (R203). -/
  | asleep
  deriving DecidableEq, Repr

/-- The view after a transaction. A fault leaves the chip unknown (R205); a status read of an awake chip tells whether it is
busy (R53); a program, erase or status-write frame may start an operation (R57, R201); after SLEEP only WAKE helps (R203);
WAKE leaves a chip that may be busy from before (R192).
DESIGN CHOICE (log entry 21): the view takes the chip for awake right after WAKE, and so believes the next status byte. The
spec states no wake-up delay and lets the chip's answers be any value until it is awake (91_not_in_source.md N12,
93_implementation_defined.md U15). -/
def ChipView.afterTransaction (v : ChipView) (t : Transaction) : ChipView :=
  match t.answer with
  | .fault _ => .unknown
  | .ok rx => match t.tx.headD 0 with
    | 0x05#8 => match v with
      | .maybeBusy => if (rx.headD 1).getLsbD 0 then .maybeBusy else .ready
      | .ready => if (rx.headD 1).getLsbD 0 then .maybeBusy else .ready
      | .unknown => .unknown
      | .asleep => .asleep
    | 0xAB#8 => .maybeBusy
    | 0xB9#8 => .asleep
    | 0x01#8 => if v = .ready then .maybeBusy else v
    | 0x02#8 => if v = .ready then .maybeBusy else v
    | 0x20#8 => if v = .ready then .maybeBusy else v
    | 0x52#8 => if v = .ready then .maybeBusy else v
    | 0xD8#8 => if v = .ready then .maybeBusy else v
    | 0x60#8 => if v = .ready then .maybeBusy else v
    | _ => v

/-- The view after an observation that began with view `v`. -/
def ChipView.after (v : ChipView) : List Event → ChipView
  | [] => v
  | .transaction t :: es => (v.afterTransaction t).after es
  | .reply _ :: es => v.after es
  | .reset :: es => ChipView.unknown.after es

/-- The host's view in a state: from its whole observation, the chip unknown at the start (R34). -/
def State.chipView (s : State) : ChipView :=
  ChipView.unknown.after s.trace

/-- Whether the host may issue this request under the duties of R201 to R203: a read, an ID read or a sleep needs a ready
chip; a gated request too, unless PRE_POLL polls first (R202); a status request any chip to which no SLEEP has gone out since
the last WAKE (R203); wakeup is always allowed. The block enforces none of this.
DESIGN CHOICE (log entry 22): a status request is allowed while the view is unknown, after a fault, a reset or at the start,
though the chip may then be asleep and its answer any value. The spec only recommends a wakeup there (R192), and recommends
`wait` after a fault (R177). -/
def ChipView.allows (v : ChipView) (cfg : Config) : Instr → Bool
  | .readStatus _ => v != .asleep
  | .isBusy _ => v != .asleep
  | .wait _ => v != .asleep
  | .poll _ => v != .asleep
  | .enableWrite _ => v == .ready || (cfg.prePoll && v == .maybeBusy)
  | .readByte _ => v == .ready
  | .readBytes _ => v == .ready
  | .writeByte _ => v == .ready || (cfg.prePoll && v == .maybeBusy)
  | .chipErase _ => v == .ready || (cfg.prePoll && v == .maybeBusy)
  | .erase4kBlock _ => v == .ready || (cfg.prePoll && v == .maybeBusy)
  | .erase32kBlock _ => v == .ready || (cfg.prePoll && v == .maybeBusy)
  | .erase64kBlock _ => v == .ready || (cfg.prePoll && v == .maybeBusy)
  | .sleep _ => v == .ready
  | .wakeup _ => true
  | .readDeviceId _ => v == .ready
  | .readUniqueId _ => v == .ready
  | .frameStatusRead => true
  | .frameStatusWrite _ => true
  | .frameWriteEnable => true
  | .frameBlockErase4k _ => true
  | .frameBlockErase32k _ => true
  | .frameBlockErase64k _ => true
  | .frameChipErase => true
  | .frameBytePageProgram _ _ => true
  | .frameArrayRead _ _ => true
  | .frameArrayReadLowFreq _ _ => true
  | .frameIdRead => true
  | .frameMacRead => true
  | .frameSleep => true
  | .frameWake => true

end Sys2Proof.Machine
end

