-- ==== Sys2Proof/Certificates/Slice0/Obligations.lean ====
section
/-! DEFINITION. The statements about the block, for the provers. The rule each formalises is named in its docstring. -/

open Sys2Proof Sys2Proof.Machine

/-! ### Encoding -/

/-- Decoding what the encoder writes gives the instruction back, with every operand at every value (30_encoding.md §1, §4). -/
def Obligations.DecodeOfEncode : Prop :=
  ∀ i : Instr, i.wellFormed = true → decode (encode i) = .ok i

/-- The other direction: whatever decodes is the encoding of what it decodes to, so no two words or frames have one meaning,
and decoding yields only well-formed instructions (30_encoding.md §1, §4). Refusing a frame with an unaligned erase address
or another dummy byte is the model's choice (log entry 16). -/
def Obligations.EncodeOfDecode : Prop :=
  ∀ (c : Code) (i : Instr), decode c = .ok i → encode i = c ∧ i.wellFormed = true

/-- R87, which the spec marks as derived: the encoding examples, as the assembler and as the decoder read them (white space:
log entry 17). -/
def Obligations.EncodingExamples : Prop :=
  assemble "read_status\nwait\nread_byte 0x123456\nread_bytes 0x001000, 4\nwrite_byte 0x001000, 0xA5\nerase_4k_block 0x12345\nerase_64k_block 0xABCDEF\nsleep\nread_unique_id" =
    .ok [0x0000000000000001, 0x0000000000000003, 0x0012345600000006, 0x0000100000040007, 0x000010000000A508,
         0x000123450000000A, 0x00ABCDEF0000000C, 0x000000000000000D, 0x0000000000000010] ∧
  decode (.request 0x0000000000000001) = .ok (.readStatus ⟨0, 0, 0⟩) ∧
  decode (.request 0x0000000000000003) = .ok (.wait ⟨0, 0, 0⟩) ∧
  decode (.request 0x0012345600000006) = .ok (.readByte ⟨0, 0, 0x123456⟩) ∧
  decode (.request 0x0000100000040007) = .ok (.readBytes ⟨0, 4, 0x1000⟩) ∧
  decode (.request 0x000010000000A508) = .ok (.writeByte ⟨0xA5, 0, 0x1000⟩) ∧
  decode (.request 0x000123450000000A) = .ok (.erase4kBlock ⟨0, 0, 0x12345⟩) ∧
  decode (.request 0x00ABCDEF0000000C) = .ok (.erase64kBlock ⟨0, 0, 0xABCDEF⟩) ∧
  decode (.request 0x000000000000000D) = .ok (.sleep ⟨0, 0, 0⟩) ∧
  decode (.request 0x0000000000000010) = .ok (.readUniqueId ⟨0, 0, 0⟩)

/-- R84 and R85, for each of the sixteen mnemonics with its OP of R74: an operand list of its shape with every literal in range
gives the word with those fields and the unread ones zero, a literal out of range is refused, and so is any other list; and no
other mnemonic is taken. -/
def Obligations.AssemblerChecksOperands : Prop :=
  (∀ row ∈ [("read_status", (0x01 : BitVec 8)), ("is_busy", 0x02), ("wait", 0x03), ("poll", 0x04), ("enable_write", 0x05),
      ("chip_erase", 0x09), ("sleep", 0x0D), ("wakeup", 0x0E), ("read_device_id", 0x0F), ("read_unique_id", 0x10)],
    ∀ l : List Nat, asmRequest row.1.toList l = match l with
      | [] => .ok (Request.toWord ⟨row.2, 0, 0, 0⟩)
      | _ => .error .wrongOperandCount) ∧
  (∀ row ∈ [("read_byte", (0x06 : BitVec 8)), ("erase_4k_block", 0x0A), ("erase_32k_block", 0x0B), ("erase_64k_block", 0x0C)],
    ∀ l : List Nat, asmRequest row.1.toList l = match l with
      | [a] => if a < 2 ^ 32 then .ok (Request.toWord ⟨row.2, 0, 0, BitVec.ofNat 32 a⟩) else .error .literalOutOfRange
      | _ => .error .wrongOperandCount) ∧
  (∀ l : List Nat, asmRequest "read_bytes".toList l = match l with
    | [a, n] =>
      if a < 2 ^ 32 ∧ n < 2 ^ 16 then .ok (Request.toWord ⟨0x07, 0, BitVec.ofNat 16 n, BitVec.ofNat 32 a⟩)
      else .error .literalOutOfRange
    | _ => .error .wrongOperandCount) ∧
  (∀ l : List Nat, asmRequest "write_byte".toList l = match l with
    | [a, d] =>
      if a < 2 ^ 32 ∧ d < 2 ^ 8 then .ok (Request.toWord ⟨0x08, BitVec.ofNat 8 d, 0, BitVec.ofNat 32 a⟩)
      else .error .literalOutOfRange
    | _ => .error .wrongOperandCount) ∧
  (∀ (m : List Char) (l : List Nat),
    (∀ name ∈ ["read_status", "is_busy", "wait", "poll", "enable_write", "read_byte", "read_bytes", "write_byte", "chip_erase",
      "erase_4k_block", "erase_32k_block", "erase_64k_block", "sleep", "wakeup", "read_device_id", "read_unique_id"],
      name.toList ≠ m) →
    asmRequest m l = .error .unknownMnemonic)

/-- R137, which the spec marks as derived: `align` clears 12, 15 or 16 low bits, and the result is the largest multiple of the granularity not above the
address. -/
def Obligations.AlignRoundsDown : Prop :=
  ∀ a : Addr24,
    (align a 4096 = a &&& 0xFFF000 ∧ (align a 4096).toNat = a.toNat / 4096 * 4096) ∧
    (align a 32768 = a &&& 0xFF8000 ∧ (align a 32768).toNat = a.toNat / 32768 * 32768) ∧
    (align a 65536 = a &&& 0xFF0000 ∧ (align a 65536).toNat = a.toNat / 65536 * 65536)

/-! ### What a step runs -/

/-- While IDLE, a step runs the presented word's instruction, in the state without that word (R100). -/
def Obligations.StepRunsThePresentedRequest : Prop :=
  ∀ (s : State) (w : ReqWord) (q : List ReqWord) (i : Instr),
    s.st = .idle → s.resetLine.headD false = false → s.requests = w :: q → decode (.request w) = .ok i →
    step s = exec i { s with resetLine := s.resetLine.tail, requests := q }

/-- While a request is active, a step runs the latched request's instruction, and, the same thing, the chip frame of the
script's current step: the frame that the step's bytes decode to, or one status read in a POLL_LOOP (R101, R102). That a
frame row runs as the current step is the model's reading (log entry 13). -/
def Obligations.StepRunsTheScriptsFrame : Prop :=
  ∀ (s : State) (c : ScriptStep),
    s.active → s.resetLine.headD false = false → s.currentStep = some c →
    ∃ i j, decode (.request s.req.toWord) = .ok i ∧ decode (.frame c.sent) = .ok j ∧
      step s = exec i { s with resetLine := s.resetLine.tail } ∧
      step s = exec j { s with resetLine := s.resetLine.tail }

/-- The model's placing of an instruction and of a table word (log entries 3 and 15): the next step runs exactly the placed
instruction, for every well-formed instruction, and exactly the instruction that the decoder reads, for every table word that it
reads one from. -/
def Obligations.PlacedInstructionRuns : Prop :=
  (∀ (s : State) (i : Instr), i.wellFormed = true →
    step (placeInstr s i) = exec i { placeInstr s i with requests := s.requests }) ∧
  (∀ (s : State) (nbits w : Nat) (i : Instr), decodeTableWord nbits w = some i →
    step (s.withFetchWord nbits w) = exec i { s.withFetchWord nbits w with requests := s.requests })

/-- The model's reading of a chip frame outside a request (log entry 13): while IDLE it does nothing. -/
def Obligations.FramesDoNothingWhileIdle : Prop :=
  ∀ (s : State) (i : Instr) (f : Frame), s.st = .idle → encode i = .frame f → exec i s = .next s

/-! ### Accept -/

/-- R100: accept latches the four fields, empties rx and sets sp to 0, makes no transaction, and activates exactly the
requests with a legal OP; and a word is accepted only while IDLE. -/
def Obligations.AcceptLatchesTheRequest : Prop :=
  ∀ (s : State), s.resetLine.headD false = false →
    (∀ (w : ReqWord) (q : List ReqWord), s.st = .idle → s.requests = w :: q →
      ∃ t, step s = .next t ∧
        t.req.op = w.extractLsb' 0 8 ∧ t.req.data = w.extractLsb' 8 8 ∧ t.req.len = w.extractLsb' 16 16 ∧
        t.req.addr = w.extractLsb' 32 32 ∧ t.rx = [] ∧ t.sp = 0 ∧ t.requests = q ∧ t.cfg = s.cfg ∧
        t.answers = s.answers ∧
        if 0x01 ≤ (w.extractLsb' 0 8).toNat ∧ (w.extractLsb' 0 8).toNat ≤ 0x10 then
          t.active ∧ t.sequencerOk ∧ t.resp = s.resp ∧ t.trace = s.trace
        else t.endedIllegal ∧ t.trace = s.trace ++ [.reply .illegalRequest]) ∧
    (s.active → ∀ t, step s = .next t → t.req = s.req ∧ t.requests = s.requests)

/-- Each of the sixteen requests is accepted by its own meaning in every IDLE state: the whole next state, `st` as R24
gives it for the first step of the script (wait, and a gated request with PRE_POLL, begin with a poll; R105, R108 to
R110). -/
def Obligations.EachRequestIsAccepted : Prop :=
  ∀ (s : State) (i : Instr) (w : ReqWord), s.st = .idle → encode i = .request w →
    exec i s = .next { s with
      req := Request.ofWord w, rx := [], sp := 0
      st := match i with
        | .wait _ => .awaitingNotBusy
        | .enableWrite _ => if s.cfg.prePoll then .awaitingNotBusy else .issuing
        | .writeByte _ => if s.cfg.prePoll then .awaitingNotBusy else .issuing
        | .chipErase _ => if s.cfg.prePoll then .awaitingNotBusy else .issuing
        | .erase4kBlock _ => if s.cfg.prePoll then .awaitingNotBusy else .issuing
        | .erase32kBlock _ => if s.cfg.prePoll then .awaitingNotBusy else .issuing
        | .erase64kBlock _ => if s.cfg.prePoll then .awaitingNotBusy else .issuing
        | _ => .issuing }

/-- A request presented while another is active is not taken, and no step reads it: the step is the same whatever the
requester holds (20_memory.md R50). That the meaning of such a request is then to leave the state as it is is the model's
choice (log entry 20), since no step runs it. -/
def Obligations.RequestIsHeldWhileAnotherIsActive : Prop :=
  (∀ (s : State) (i : Instr) (w : ReqWord),
    s.active → encode i = .request w → s.req ≠ Request.ofWord w → exec i s = .next s) ∧
  (∀ (s : State) (q : List ReqWord), s.active →
    match step s, step { s with requests := q } with
    | .next t, .next t' => t.requests = s.requests ∧ t' = { t with requests := q }
    | .fault r, .fault r' => r = r'
    | _, _ => False)

/-- R172 and R78: a word with a reserved OP is accepted and ends at once with ILLEGAL_REQUEST, makes no transaction and leaves `st` IDLE. -/
def Obligations.ReservedOpIsAnIllegalRequest : Prop :=
  ∀ (s : State) (w : ReqWord) (q : List ReqWord),
    s.st = .idle → s.resetLine.headD false = false → s.requests = w :: q →
    (w.extractLsb' 0 8 = 0x00 ∨ 0x11 ≤ (w.extractLsb' 0 8).toNat) →
    decode (.request w) = .error (.reservedOp (w.extractLsb' 0 8)) ∧
    ∃ t, step s = .next t ∧ t.endedIllegal ∧ t.req = Request.ofWord w ∧ t.sp = 0 ∧ t.rx = [] ∧ t.requests = q ∧
      t.answers = s.answers ∧ t.trace = s.trace ++ [.reply .illegalRequest]

/-! ### The sequencer -/

/-- R101: one step of an active request, for every one of the sixteen requests, every configuration and every step of its
script: the meaning of the request answers the next state that `stepEffect` spells out. And "The block takes no step while no
request is active": with nothing presented, a step only samples the reset line. -/
def Obligations.EachRequestTakesItsStep : Prop :=
  (∀ (s : State) (i : Instr) (w : ReqWord) (p : Plan) (c : ScriptStep),
    encode i = .request w → s.active → s.req = Request.ofWord w → planOf s.cfg i = some p →
    p.script[s.sp.toNat]? = some c →
    ∃ t, exec i s = .next t ∧ s.stepEffect t p c) ∧
  (∀ s : State, s.st = .idle → s.resetLine.headD false = false → s.requests = [] →
    step s = .next { s with resetLine := s.resetLine.tail })

/-- R80: the fourteen chip frames with their bytes, transaction kinds and receive counts, each as a FRAME step; and
STATUSREAD on a POLL_LOOP step is one poll. That a frame row runs as the current step is the model's reading (log entry 13). -/
def Obligations.ChipFramesSendTheirBytes : Prop :=
  (∀ d, sendsFrame (.frameStatusWrite d) ⟨.send, [0x01, d], 0, false⟩) ∧
  sendsFrame .frameWriteEnable ⟨.send, [0x06], 0, false⟩ ∧
  (∀ a, sendsFrame (.frameBlockErase4k a) ⟨.send, [0x20, a.extractLsb' 16 8, a.extractLsb' 8 8, a.extractLsb' 0 8], 0, false⟩) ∧
  (∀ a, sendsFrame (.frameBlockErase32k a) ⟨.send, [0x52, a.extractLsb' 16 8, a.extractLsb' 8 8, a.extractLsb' 0 8], 0, false⟩) ∧
  (∀ a, sendsFrame (.frameBlockErase64k a) ⟨.send, [0xD8, a.extractLsb' 16 8, a.extractLsb' 8 8, a.extractLsb' 0 8], 0, false⟩) ∧
  sendsFrame .frameChipErase ⟨.send, [0x60], 0, false⟩ ∧
  (∀ a d, sendsFrame (.frameBytePageProgram a d)
    ⟨.send, [0x02, a.extractLsb' 16 8, a.extractLsb' 8 8, a.extractLsb' 0 8, d], 0, false⟩) ∧
  (∀ a n, sendsFrame (.frameArrayRead a n)
    ⟨.sendRead, [0x0B, a.extractLsb' 16 8, a.extractLsb' 8 8, a.extractLsb' 0 8, 0x00], n.toNat, true⟩) ∧
  (∀ a n, sendsFrame (.frameArrayReadLowFreq a n)
    ⟨.sendRead, [0x03, a.extractLsb' 16 8, a.extractLsb' 8 8, a.extractLsb' 0 8], n.toNat, true⟩) ∧
  sendsFrame .frameIdRead ⟨.sendRead, [0x9F], 2, true⟩ ∧
  sendsFrame .frameMacRead ⟨.sendRead, [0x4B], 8, true⟩ ∧
  sendsFrame .frameSleep ⟨.send, [0xB9], 0, false⟩ ∧
  sendsFrame .frameWake ⟨.send, [0xAB], 0, false⟩ ∧
  (∀ (s : State) (p : Plan) (c : ScriptStep),
    s.active → requestPlan s.req s.cfg = some p → p.script[s.sp.toNat]? = some c →
    ∃ t, exec .frameStatusRead s = .next t ∧
      s.stepEffect t p (if c = .pollLoop then .pollLoop else .frame ⟨.sendRead, [0x05], 1, true⟩))

/-- R46: a transaction that receives n bytes delivers exactly n, or a fault; an answer of n bytes is delivered unchanged. -/
def Obligations.SendReadDeliversExactlyN : Prop :=
  ∀ (s : State) (n : Nat),
    ((∃ rx, s.nextAnswer n = .ok rx ∧ rx.length = n) ∨ ∃ e, s.nextAnswer n = .fault e) ∧
    (∀ rx rest, s.answers = .ok rx :: rest → rx.length = n → s.nextAnswer n = .ok rx)

/-- R171 and R175: a faulting transaction ends the request at once, whatever the request and the step: one transaction, the
response, IDLE, with `req`, `sp` and `rx` as they were; the fault value and the step index are in the response. -/
def Obligations.TransportFaultEndsTheRequest : Prop :=
  ∀ (s : State) (c : ScriptStep) (e : TFault),
    s.active → s.resetLine.headD false = false → s.currentStep = some c → s.nextAnswer c.sent.n = .fault e →
    ∃ t, step s = .next t ∧ t.endedFault e s.sp ∧ t.req = s.req ∧ t.sp = s.sp ∧ t.rx = s.rx ∧ t.cfg = s.cfg ∧
      t.trace = s.trace ++ [.transaction (answered c.sent (.fault e)), .reply (.transportFault e s.sp)]

/-- R35: rx is emptied by an accept, written by a frame that keeps its bytes, and by nothing else; and no script has two
such frames. -/
def Obligations.RxHoldsOnlyKeptBytes : Prop :=
  (∀ (s t : State), s.resetLine.headD false = false → step s = .next t →
    match s.st, s.requests with
    | .idle, [] => t.rx = s.rx
    | .idle, _ :: _ => t.rx = []
    | _, _ => match s.currentStep with
      | some (.frame f) => match s.nextAnswer f.n with
        | .ok rx => t.rx = if f.keep then rx else s.rx
        | .fault _ => t.rx = s.rx
      | _ => t.rx = s.rx) ∧
  (∀ (cfg : Config) (i : Instr) (p : Plan), planOf cfg i = some p →
    (p.script.filter fun c => match c with | .frame f => f.keep | .pollLoop => false).length ≤ 1)

/-- R25 and R9: every request's script has one to six steps. -/
def Obligations.ScriptsHaveOneToSixSteps : Prop :=
  ∀ (cfg : Config) (i : Instr) (w : ReqWord), encode i = .request w →
    ∃ p, planOf cfg i = some p ∧ 1 ≤ p.script.length ∧ p.script.length ≤ 6

/-- R109 and R110: each gated script begins with WE(cfg), the six rows of R110. -/
def Obligations.GatedScriptsBeginWithWriteEnable : Prop :=
  ∀ (cfg : Config) (f : Operands) (i : Instr),
    i = .enableWrite f ∨ i = .writeByte f ∨ i = .chipErase f ∨ i = .erase4kBlock f ∨ i = .erase32kBlock f ∨
      i = .erase64kBlock f →
    ∃ p rest, planOf cfg i = some p ∧ p.script = weRow cfg ++ rest

/-- R81: whatever the state, a transaction that a step makes is a frame of the opcode table: its bytes decode to a chip
frame. -/
def Obligations.OnlyTableFramesGoOut : Prop :=
  ∀ (s t : State), step s = .next t →
    ∃ evs, t.trace = s.trace ++ evs ∧ (transactionsOf evs).length ≤ 1 ∧
      ∀ x ∈ transactionsOf evs, ∃ keep i, decode (.frame { kind := x.kind, tx := x.tx, n := x.n, keep := keep }) = .ok i

/-! ### The requests, each from its presented word to its response -/

/-- R103, R104, R106: read_status, is_busy and poll make one status read and answer with the byte, or with its bit 0. -/
def Obligations.StatusRequestsRun : Prop :=
  runsScript 0x01 .readStatus (fun _ _ => [.frame ⟨.sendRead, [0x05], 1, true⟩]) (fun rx => rx.headD 0) (fun _ => []) ∧
  runsScript 0x02 .isBusy (fun _ _ => [.frame ⟨.sendRead, [0x05], 1, true⟩])
    (fun rx => if (rx.headD 0).getLsbD 0 then 1 else 0) (fun _ => []) ∧
  runsScript 0x04 .poll (fun _ _ => [.frame ⟨.sendRead, [0x05], 1, true⟩])
    (fun rx => if (rx.headD 0).getLsbD 0 then 1 else 0) (fun _ => [])

/-- R105 and R111: wait is the poll loop alone, enable_write is WE(cfg). -/
def Obligations.WaitAndEnableWriteRun : Prop :=
  runsScript 0x03 .wait (fun _ _ => [.pollLoop]) (fun _ => 0) (fun _ => []) ∧
  runsScript 0x05 .enableWrite (fun cfg _ => weRow cfg) (fun _ => 0) (fun _ => [])

/-- R120 to R122: the array reads send the unaligned 24-bit address, most significant byte first, with the dummy byte when
FAST, and answer with the bytes in the order received. -/
def Obligations.ArrayReadsRun : Prop :=
  let cmd : Config → Operands → Nat → List ScriptStep := fun cfg f n =>
    match cfg.readSpeed with
    | .fast => [.frame ⟨.sendRead, [0x0B, f.addr.extractLsb' 16 8, f.addr.extractLsb' 8 8, f.addr.extractLsb' 0 8, 0x00], n, true⟩]
    | .lowFreq => [.frame ⟨.sendRead, [0x03, f.addr.extractLsb' 16 8, f.addr.extractLsb' 8 8, f.addr.extractLsb' 0 8], n, true⟩]
  runsScript 0x06 .readByte (fun cfg f => cmd cfg f 1) (fun rx => rx.headD 0) (fun rx => [rx.headD 0]) ∧
  runsScript 0x07 .readBytes (fun cfg f => cmd cfg f f.len.toNat) (fun _ => 0) (fun rx => rx)

/-- R130: write_byte is WE(cfg) and the program frame, and no poll follows it. -/
def Obligations.WriteByteRuns : Prop :=
  runsScript 0x08 .writeByte
    (fun cfg f => weRow cfg ++
      [.frame ⟨.send, [0x02, f.addr.extractLsb' 16 8, f.addr.extractLsb' 8 8, f.addr.extractLsb' 0 8, f.data], 0, false⟩])
    (fun _ => 0) (fun _ => [])

/-- R132 to R136: chip_erase and the block erases are WE(cfg), the erase frame with the address rounded down to 4096, 32768
or 65536, and the completion wait. -/
def Obligations.ErasesRun : Prop :=
  let block : BitVec 8 → Addr24 → Config → Operands → List ScriptStep := fun opc mask cfg f =>
    let a := f.addr.extractLsb' 0 24 &&& mask
    weRow cfg ++ [.frame ⟨.send, [opc, a.extractLsb' 16 8, a.extractLsb' 8 8, a.extractLsb' 0 8], 0, false⟩, .pollLoop]
  runsScript 0x09 .chipErase (fun cfg _ => weRow cfg ++ [.frame ⟨.send, [0x60], 0, false⟩, .pollLoop])
    (fun _ => 0) (fun _ => []) ∧
  runsScript 0x0A .erase4kBlock (block 0x20 0xFFF000) (fun _ => 0) (fun _ => []) ∧
  runsScript 0x0B .erase32kBlock (block 0x52 0xFF8000) (fun _ => 0) (fun _ => []) ∧
  runsScript 0x0C .erase64kBlock (block 0xD8 0xFF0000) (fun _ => 0) (fun _ => [])

/-- R150, R151: sleep and wakeup are one frame each, with no poll before or after. -/
def Obligations.PowerRequestsRun : Prop :=
  runsScript 0x0D .sleep (fun _ _ => [.frame ⟨.send, [0xB9], 0, false⟩]) (fun _ => 0) (fun _ => []) ∧
  runsScript 0x0E .wakeup (fun _ _ => [.frame ⟨.send, [0xAB], 0, false⟩]) (fun _ => 0) (fun _ => [])

/-- R160, R161: the IDs are 2 and 8 bytes, in the order received, after the opcode alone. -/
def Obligations.IdentificationRequestsRun : Prop :=
  runsScript 0x0F .readDeviceId (fun _ _ => [.frame ⟨.sendRead, [0x9F], 2, true⟩]) (fun _ => 0) (fun rx => rx) ∧
  runsScript 0x10 .readUniqueId (fun _ _ => [.frame ⟨.sendRead, [0x4B], 8, true⟩]) (fun _ => 0) (fun rx => rx)

/-! ### Polling -/

/-- R102: a poll loop whose next polls read busy, then not busy, makes exactly one poll for each and leaves at the first not
busy; while they read busy it stays where it is, with no response and no request taken (R178). -/
def Obligations.PollLoopPollsUntilNotBusy : Prop :=
  ∀ (s : State) (bs : List Byte) (rest : List Answer),
    s.active → s.resetLine = [] → s.currentStep = some .pollLoop → (∀ b ∈ bs, b.getLsbD 0 = true) →
    s.answers = bs.map (fun b => .ok [b]) ++ rest →
    (∃ t, run bs.length s = .next t ∧ t.st = s.st ∧ t.sp = s.sp ∧ t.req = s.req ∧ t.rx = s.rx ∧ t.resp = s.resp ∧
      t.requests = s.requests ∧ t.answers = rest ∧
      t.trace = s.trace ++ bs.map fun b => .transaction ⟨.sendRead, [0x05], 1, .ok [b]⟩) ∧
    (∀ b rest', b.getLsbD 0 = false → rest = .ok [b] :: rest' →
      ∃ t, run (bs.length + 1) s = .next t ∧ t.sp = s.sp + 1 ∧ t.rx = s.rx ∧ t.requests = s.requests ∧
        t.answers = rest' ∧
        transactionsOf t.trace =
          transactionsOf s.trace ++ (bs ++ [b]).map fun x => ⟨.sendRead, [0x05], 1, .ok [x]⟩)

/-- R178: a request in a POLL_LOOP that reads only busy is still there after any number of polls, and a reset then ends it,
with no response. -/
def Obligations.OnlyAResetEndsAHang : Prop :=
  ∀ (s : State) (bs : List Byte) (rest : List Answer),
    s.active → s.resetLine = List.replicate bs.length false ++ [true] → s.currentStep = some .pollLoop →
    (∀ b ∈ bs, b.getLsbD 0 = true) → s.answers = bs.map (fun b => .ok [b]) ++ rest →
    (∃ t, run bs.length s = .next t ∧ t.st = s.st ∧ t.sp = s.sp ∧ t.resp = s.resp ∧ t.requests = s.requests) ∧
    (∃ u, run (bs.length + 1) s = .next u ∧ u.st = .idle ∧ u.sp = 0 ∧ u.resp.valid = false ∧
      u.requests = s.requests ∧ repliesOf u.trace = repliesOf s.trace ∧
      transactionsOf u.trace = transactionsOf s.trace ++ bs.map fun x => ⟨.sendRead, [0x05], 1, .ok [x]⟩)

/-- R107, which the spec marks as derived: the same transport answers, given to one wait and to a host loop of poll requests that stops at the first OK
response with value 0, give the same transactions; the polls answer 1 while busy and 0 at the end; a fault ends both at the
same poll. -/
def Obligations.WaitMakesThePollsOfAHostLoop : Prop :=
  ∀ (s : State) (f g : Operands) (q : List ReqWord) (bs : List Byte) (rest : List Answer) (last : Answer),
    s.st = .idle → s.resetLine = [] → (∀ b ∈ bs, b.getLsbD 0 = true) →
    s.answers = bs.map (fun b => .ok [b]) ++ last :: rest →
    let waiting := { s with requests := (f.request 0x03).toWord :: q }
    let polling := { s with requests := List.replicate (bs.length + 1) (g.request 0x04).toWord ++ q }
    (∀ b, last = .ok [b] → b.getLsbD 0 = false →
      ∃ t u, run (bs.length + 2) waiting = .next t ∧ run (2 * bs.length + 2) polling = .next u ∧
        transactionsOf t.trace = transactionsOf u.trace ∧
        transactionsOf t.trace =
          transactionsOf s.trace ++ (bs ++ [b]).map (fun x => ⟨.sendRead, [0x05], 1, .ok [x]⟩) ∧
        t.endedOk 0 [] ∧ u.endedOk 0 [] ∧ t.requests = q ∧ u.requests = q ∧
        repliesOf t.trace = repliesOf s.trace ++ [.ok 0 []] ∧
        repliesOf u.trace = repliesOf s.trace ++ List.replicate bs.length (.ok 1 []) ++ [.ok 0 []]) ∧
    (∀ e, last = .fault e →
      ∃ t u, run (bs.length + 2) waiting = .next t ∧ run (2 * bs.length + 2) polling = .next u ∧
        transactionsOf t.trace = transactionsOf u.trace ∧
        t.endedFault e 0 ∧ u.endedFault e 0 ∧ t.requests = q ∧ u.requests = q)

/-! ### Reset -/

/-- R190 and R191: a reset lands before any step, drops an active request with no response and no transaction, sets what R34
gives, and leaves the configuration; the reset state is the same on those. -/
def Obligations.ResetDropsTheRequest : Prop :=
  (∀ (s : State) (line : List Bool), s.resetLine = true :: line →
    ∃ t, step s = .next t ∧ t.st = .idle ∧ t.sp = 0 ∧ t.rx = [] ∧ t.resp.valid = false ∧ t.cfg = s.cfg ∧
      t.requests = s.requests ∧ t.answers = s.answers ∧ t.resetLine = line ∧ t.trace = s.trace ++ [.reset]) ∧
  State.reset.st = .idle ∧ State.reset.sp = 0 ∧ State.reset.rx = [] ∧ State.reset.resp.valid = false ∧
    State.reset.trace = []

/-! ### Invariants and frames -/

/-- The invariant holds right after reset. -/
def Obligations.InvAtReset : Prop :=
  State.reset.Inv

/-- Every step keeps the invariant: `st` is R24's function of the rest of the state, sp stays within the longest script, rx
and the response stay within 65535 bytes, and a written response has no reserved code. -/
def Obligations.StepKeepsInv : Prop :=
  ∀ (s t : State), s.Inv → step s = .next t → t.Inv

/-- From every state that meets the invariant the machine runs for ever: no step of any run faults or is refused. -/
def Obligations.RunNeverStops : Prop :=
  ∀ s : State, s.Inv → ∀ k : Nat, ∃ t, run k s = .next t ∧ t.Inv

/-- The frame of every instruction: what exec leaves unchanged when it gives a next state. The configuration, the held
requests and the reset line always; `req` unless an IDLE block accepts a request; nothing at all changes without a
transaction but by such an accept, and then not the response register; a transaction needs an active request, consumes one
answer, moves `sp` on by one step or not at all, and changes `rx` to nothing but the bytes it received; the response register
changes only with a response in the trace, which leaves the block IDLE. -/
def Obligations.ExecFrame : Prop :=
  ∀ (i : Instr) (s t : State), exec i s = .next t →
    t.cfg = s.cfg ∧ t.requests = s.requests ∧ t.resetLine = s.resetLine ∧
    ((s.active ∨ i.isRequest = false) → t.req = s.req) ∧
    ∃ evs, t.trace = s.trace ++ evs ∧
      (transactionsOf evs = [] → t.answers = s.answers ∧ t.resp = s.resp ∧ repliesOf evs = [] ∧
        ((s.active ∨ i.isRequest = false) → t = s)) ∧
      (transactionsOf evs ≠ [] → s.active ∧ t.answers = s.answers.tail ∧ (transactionsOf evs).length = 1 ∧
        (t.sp = s.sp ∨ t.sp = s.sp + 1) ∧ (t.rx = s.rx ∨ ∃ x ∈ transactionsOf evs, x.answer = .ok t.rx)) ∧
      (repliesOf evs = [] → t.resp = s.resp) ∧
      (repliesOf evs ≠ [] → t.st = .idle ∧ (repliesOf evs).length = 1)

/-- R77 and R73: the block's behaviour does not depend on the fields a request does not read, nor on ADDR bits 31:24: two
machines that differ only there make the same transactions and the same responses, for ever. -/
def Obligations.UnreadFieldsDoNotMatter : Prop :=
  ∀ (s s' t : State) (k : Nat), s.sameBehaviour s' → run k s = .next t →
    ∃ t', run k s' = .next t' ∧ t.sameBehaviour t' ∧ t'.trace = t.trace ∧ t'.resp = t.resp

/-! ### The host's view -/

/-- R131 and R201, R202: an erase that runs to its end leaves an awake chip ready; a write_byte that runs to its end leaves
it possibly busy, so that the host must see BUSY = 0 before a read. The host's view is the model's reading of the duties (log
entries 18 and 21). -/
def Obligations.CompletedErasesLeaveTheChipReady : Prop :=
  ∀ (cfg : Config) (f : Operands) (v : ChipView) (as : List Answer) (p : Plan) (pg : Progress),
    v = .ready ∨ v = .maybeBusy → progress p.script [] as = some pg → pg.step = p.script.length →
    (∀ i, i = .chipErase f ∨ i = .erase4kBlock f ∨ i = .erase32kBlock f ∨ i = .erase64kBlock f →
      planOf cfg i = some p → v.after (pg.made.map .transaction) = .ready) ∧
    (planOf cfg (.writeByte f) = some p →
      v.after (pg.made.map .transaction) = .maybeBusy ∧
      ChipView.allows (v.after (pg.made.map .transaction)) cfg (.readByte f) = false)

/-! ### Table words -/

/-- The model's reading of a table word (log entry 15): 64 bits are a request word, read as the decoder reads it; the fourteen
frame rows decode from their opcode alone, their operands zero; and operand bytes follow the opcode byte in sending order. -/
def Obligations.TableWordsDecode : Prop :=
  (∀ w : ReqWord, decodeTableWord 64 w.toNat = (decode (.request w)).toOption) ∧
  ([0x05, 0x01, 0x06, 0x20, 0x52, 0xD8, 0x60, 0x02, 0x0B, 0x03, 0x9F, 0x4B, 0xB9, 0xAB].map (decodeTableWord 8) =
    [.frameStatusRead, .frameStatusWrite 0, .frameWriteEnable, .frameBlockErase4k 0, .frameBlockErase32k 0,
     .frameBlockErase64k 0, .frameChipErase, .frameBytePageProgram 0 0, .frameArrayRead 0 0, .frameArrayReadLowFreq 0 0,
     .frameIdRead, .frameMacRead, .frameSleep, .frameWake].map some) ∧
  (∀ a2 a1 a0 d : Byte,
    decodeTableWord 40 (0x02 + 2 ^ 8 * a2.toNat + 2 ^ 16 * a1.toNat + 2 ^ 24 * a0.toNat + 2 ^ 32 * d.toNat) =
      some (.frameBytePageProgram (a2 ++ a1 ++ a0) d) ∧
    decodeTableWord 32 (0x03 + 2 ^ 8 * a2.toNat + 2 ^ 16 * a1.toNat + 2 ^ 24 * a0.toNat) =
      some (.frameArrayReadLowFreq (a2 ++ a1 ++ a0) 0) ∧
    decodeTableWord 16 (0x01 + 2 ^ 8 * d.toNat) = some (.frameStatusWrite d))
end

