-- ==== Sys2Proof/Laws/Encoding.lean ====
section
/-! SUPPORT. The small lemmas of the encodings: the request word's fields and the address bytes. -/

namespace Sys2Proof

/-- Which field a bit of a request word belongs to (30_encoding.md R71). -/
theorem getLsbD_toWord (r : Request) (i : Nat) :
    r.toWord.getLsbD i =
      if i < 8 then r.op.getLsbD i else if i - 8 < 8 then r.data.getLsbD (i - 8)
      else if i - 8 - 8 < 16 then r.len.getLsbD (i - 8 - 8) else r.addr.getLsbD (i - 8 - 8 - 16) := by
  show (r.addr ++ r.len ++ r.data ++ r.op).getLsbD i = _
  simp only [BitVec.getLsbD_append]

/-- Which byte a bit of a chip address belongs to (00_scope.md R12). -/
theorem getLsbD_addrOfBytes (a2 a1 a0 : Byte) (i : Nat) :
    (addrOfBytes a2 a1 a0).getLsbD i =
      if i < 8 then a0.getLsbD i else if i - 8 < 8 then a1.getLsbD (i - 8) else a2.getLsbD (i - 8 - 8) := by
  show (a2 ++ a1 ++ a0).getLsbD i = _
  simp only [BitVec.getLsbD_append]

@[simp] theorem ofWord_toWord (r : Request) : Request.ofWord r.toWord = r := by
  obtain ⟨op, data, len, addr⟩ := r
  simp only [Request.ofWord, Request.mk.injEq]
  refine ⟨?_, ?_, ?_, ?_⟩ <;> apply BitVec.eq_of_getLsbD_eq <;> intro i hi <;>
    rw [BitVec.getLsbD_extractLsb', getLsbD_toWord, decide_eq_true hi, Bool.true_and]
  · rw [if_pos (by omega)]; simp
  · rw [if_neg (by omega), if_pos (by omega)]; simp
  · rw [if_neg (by omega), if_neg (by omega), if_pos (by omega)]; congr 1; omega
  · rw [if_neg (by omega), if_neg (by omega), if_neg (by omega)]; congr 1; omega

@[simp] theorem toWord_ofWord (w : ReqWord) : (Request.ofWord w).toWord = w := by
  apply BitVec.eq_of_getLsbD_eq
  intro i hi
  simp only [getLsbD_toWord, Request.ofWord, BitVec.getLsbD_extractLsb']
  split
  · simp [*]
  split
  · rw [decide_eq_true ‹_›, Bool.true_and]; congr 1; omega
  split
  · rw [decide_eq_true ‹_›, Bool.true_and]; congr 1; omega
  · rw [decide_eq_true (by omega), Bool.true_and]; congr 1; omega

@[simp] theorem addrOfBytes_addrBytes (a : Addr24) :
    addrOfBytes (a.extractLsb' 16 8) (a.extractLsb' 8 8) (a.extractLsb' 0 8) = a := by
  apply BitVec.eq_of_getLsbD_eq
  intro i hi
  simp only [getLsbD_addrOfBytes, BitVec.getLsbD_extractLsb']
  split
  · simp [*]
  split
  · rw [decide_eq_true ‹_›, Bool.true_and]; congr 1; omega
  · rw [decide_eq_true (by omega), Bool.true_and]; congr 1; omega

@[simp] theorem addrBytes_addrOfBytes (a2 a1 a0 : Byte) : addrBytes (addrOfBytes a2 a1 a0) = [a2, a1, a0] := by
  simp only [addrBytes, List.cons.injEq, and_true]
  refine ⟨?_, ?_, ?_⟩ <;> apply BitVec.eq_of_getLsbD_eq <;> intro i hi <;>
    rw [BitVec.getLsbD_extractLsb', getLsbD_addrOfBytes, decide_eq_true hi, Bool.true_and]
  · rw [if_neg (by omega), if_neg (by omega)]; congr 1; omega
  · rw [if_neg (by omega), if_pos (by omega)]; congr 1; omega
  · rw [if_pos (by omega)]; congr 1; omega

/-- The OP byte of a request's word selects its constructor (30_encoding.md R74). -/
theorem decodeRequest_toWord (r : Request) : decodeRequest r.toWord = r.decode := by
  rw [decodeRequest, ofWord_toWord]

@[simp] theorem operands_request (op : BitVec 8) (f : Operands) : (f.request op).operands = f := rfl

/-- `extractLsb'` of the encoded word gives back the OP field. -/
@[simp] theorem ofWord_op (w : ReqWord) : (Request.ofWord w).op = w.extractLsb' 0 8 := rfl

end Sys2Proof
end

