-- ==== Sys2Proof/Laws/State.lean ====
section
/-! SUPPORT. One lemma per field per update of the state, true by rfl, so that no later proof unfolds a record update. -/

namespace Sys2Proof.Machine

/-! ### transacted: one transaction changes nothing of the block (20_memory.md R47) -/
section
variable (s : State) (k : TxKind) (tx : List Byte) (n : Nat)
@[simp] theorem transacted_st : (s.transacted k tx n).st = s.st := rfl
@[simp] theorem transacted_req : (s.transacted k tx n).req = s.req := rfl
@[simp] theorem transacted_sp : (s.transacted k tx n).sp = s.sp := rfl
@[simp] theorem transacted_rx : (s.transacted k tx n).rx = s.rx := rfl
@[simp] theorem transacted_resp : (s.transacted k tx n).resp = s.resp := rfl
@[simp] theorem transacted_cfg : (s.transacted k tx n).cfg = s.cfg := rfl
@[simp] theorem transacted_requests : (s.transacted k tx n).requests = s.requests := rfl
@[simp] theorem transacted_resetLine : (s.transacted k tx n).resetLine = s.resetLine := rfl
@[simp] theorem transacted_answers : (s.transacted k tx n).answers = s.answers.tail := rfl
@[simp] theorem transacted_draws : (s.transacted k tx n).draws = s.draws + 1 := rfl
@[simp] theorem transacted_trace : (s.transacted k tx n).trace =
    s.trace ++ [.transaction { kind := k, tx := tx, n := n, answer := s.nextAnswer n }] := rfl
end

/-! ### endRequest: a response leaves req, sp and rx (60_exceptions.md R175) -/
section
variable (r : Reply) (s : State)
@[simp] theorem endRequest_st : (endRequest r s).st = .idle := rfl
@[simp] theorem endRequest_req : (endRequest r s).req = s.req := rfl
@[simp] theorem endRequest_sp : (endRequest r s).sp = s.sp := rfl
@[simp] theorem endRequest_rx : (endRequest r s).rx = s.rx := rfl
@[simp] theorem endRequest_resp : (endRequest r s).resp = r.response s.draws := rfl
@[simp] theorem endRequest_cfg : (endRequest r s).cfg = s.cfg := rfl
@[simp] theorem endRequest_requests : (endRequest r s).requests = s.requests := rfl
@[simp] theorem endRequest_resetLine : (endRequest r s).resetLine = s.resetLine := rfl
@[simp] theorem endRequest_answers : (endRequest r s).answers = s.answers := rfl
@[simp] theorem endRequest_draws : (endRequest r s).draws = s.draws + 1 := rfl
@[simp] theorem endRequest_trace : (endRequest r s).trace = s.trace ++ [.reply r] := rfl
end

/-! ### the response register of a reply (10_state.md R27) -/
section
variable (d : Nat) (r : Reply)
@[simp] theorem response_valid : (r.response d).valid = true := by cases r <;> rfl
@[simp] theorem response_ok_rc (v : Byte) (b : List Byte) : ((Reply.ok v b).response d).rc = rcOk := rfl
@[simp] theorem response_ok_value (v : Byte) (b : List Byte) : ((Reply.ok v b).response d).value = v := rfl
@[simp] theorem response_ok_data (v : Byte) (b : List Byte) : ((Reply.ok v b).response d).data = b := rfl
@[simp] theorem response_fault_rc (e : TFault) (k : BitVec 3) :
    ((Reply.transportFault e k).response d).rc = rcTransportFault := rfl
@[simp] theorem response_fault_value (e : TFault) (k : BitVec 3) : ((Reply.transportFault e k).response d).value = 0 := rfl
@[simp] theorem response_fault_data (e : TFault) (k : BitVec 3) : ((Reply.transportFault e k).response d).data = [] := rfl
@[simp] theorem response_fault_faultE (e : TFault) (k : BitVec 3) :
    ((Reply.transportFault e k).response d).faultE = e := rfl
@[simp] theorem response_fault_faultStep (e : TFault) (k : BitVec 3) :
    ((Reply.transportFault e k).response d).faultStep = k := rfl
@[simp] theorem response_illegal_rc : (Reply.illegalRequest.response d).rc = rcIllegalRequest := rfl
@[simp] theorem response_illegal_value : (Reply.illegalRequest.response d).value = 0 := rfl
@[simp] theorem response_illegal_data : (Reply.illegalRequest.response d).data = [] := rfl
end

/-! ### latch and accept (40_status_wait.md R100) -/
section
variable (r : Request) (p : Plan) (s : State)
@[simp] theorem latch_st : (latch r s).st = s.st := rfl
@[simp] theorem latch_req : (latch r s).req = r := rfl
@[simp] theorem latch_sp : (latch r s).sp = 0 := rfl
@[simp] theorem latch_rx : (latch r s).rx = [] := rfl
@[simp] theorem latch_resp : (latch r s).resp = s.resp := rfl
@[simp] theorem latch_cfg : (latch r s).cfg = s.cfg := rfl
@[simp] theorem latch_requests : (latch r s).requests = s.requests := rfl
@[simp] theorem latch_resetLine : (latch r s).resetLine = s.resetLine := rfl
@[simp] theorem latch_answers : (latch r s).answers = s.answers := rfl
@[simp] theorem latch_draws : (latch r s).draws = s.draws := rfl
@[simp] theorem latch_trace : (latch r s).trace = s.trace := rfl
@[simp] theorem accept_st : (accept r p s).st = seqStateAt p.script 0 := rfl
@[simp] theorem accept_req : (accept r p s).req = r := rfl
@[simp] theorem accept_sp : (accept r p s).sp = 0 := rfl
@[simp] theorem accept_rx : (accept r p s).rx = [] := rfl
@[simp] theorem accept_resp : (accept r p s).resp = s.resp := rfl
@[simp] theorem accept_cfg : (accept r p s).cfg = s.cfg := rfl
@[simp] theorem accept_requests : (accept r p s).requests = s.requests := rfl
@[simp] theorem accept_resetLine : (accept r p s).resetLine = s.resetLine := rfl
@[simp] theorem accept_answers : (accept r p s).answers = s.answers := rfl
@[simp] theorem accept_draws : (accept r p s).draws = s.draws := rfl
@[simp] theorem accept_trace : (accept r p s).trace = s.trace := rfl
end

/-! ### sampled: only the reset line -/
section
variable (s : State)
@[simp] theorem sampled_st : s.sampled.st = s.st := rfl
@[simp] theorem sampled_req : s.sampled.req = s.req := rfl
@[simp] theorem sampled_sp : s.sampled.sp = s.sp := rfl
@[simp] theorem sampled_rx : s.sampled.rx = s.rx := rfl
@[simp] theorem sampled_resp : s.sampled.resp = s.resp := rfl
@[simp] theorem sampled_cfg : s.sampled.cfg = s.cfg := rfl
@[simp] theorem sampled_requests : s.sampled.requests = s.requests := rfl
@[simp] theorem sampled_resetLine : s.sampled.resetLine = s.resetLine.tail := rfl
@[simp] theorem sampled_answers : s.sampled.answers = s.answers := rfl
@[simp] theorem sampled_draws : s.sampled.draws = s.draws := rfl
@[simp] theorem sampled_trace : s.sampled.trace = s.trace := rfl
@[simp] theorem sampled_currentStep : s.sampled.currentStep = s.currentStep := rfl
@[simp] theorem sampled_nextAnswer (n : Nat) : s.sampled.nextAnswer n = s.nextAnswer n := rfl
end

/-! ### blockReset (70_reset_and_hazards.md R190) -/
section
variable (s : State)
@[simp] theorem blockReset_st : (blockReset s).st = .idle := rfl
@[simp] theorem blockReset_sp : (blockReset s).sp = 0 := rfl
@[simp] theorem blockReset_rx : (blockReset s).rx = [] := rfl
@[simp] theorem blockReset_valid : (blockReset s).resp.valid = false := rfl
@[simp] theorem blockReset_cfg : (blockReset s).cfg = s.cfg := rfl
@[simp] theorem blockReset_requests : (blockReset s).requests = s.requests := rfl
@[simp] theorem blockReset_resetLine : (blockReset s).resetLine = s.resetLine := rfl
@[simp] theorem blockReset_answers : (blockReset s).answers = s.answers := rfl
@[simp] theorem blockReset_trace : (blockReset s).trace = s.trace ++ [.reset] := rfl
end

end Sys2Proof.Machine
end

