-- ==== Sys2Proof/Laws/Ops.lean ====
section
/-! SUPPORT. What each shared operation can do, said once: the transport's answers, the steps of the sequencer, the meaning
of a request, and the inversion of a step. -/

namespace Sys2Proof.Machine

/-! ### The transport (20_memory.md R46) -/

@[simp] theorem receive_length (d n : Nat) (bs : List Byte) : (receive d n bs).length = n := by
  induction n generalizing bs with
  | zero => cases bs <;> rfl
  | succ n ih => cases bs <;> simp [receive, ih]

theorem receive_of_length (d : Nat) (bs : List Byte) : receive d bs.length bs = bs := by
  induction bs with
  | nil => rfl
  | cons b bs ih => simp [receive, ih]

/-- An answer that delivers bytes delivers as many as were asked for. -/
theorem length_of_nextAnswer_ok {s : State} {n : Nat} {rx : List Byte} (h : s.nextAnswer n = .ok rx) : rx.length = n := by
  unfold State.nextAnswer at h
  split at h
  · cases h; simp
  · cases h
  · split at h <;> cases h; simp

theorem nextAnswer_listed_ok {s : State} {rx : List Byte} {rest : List Answer} (h : s.answers = .ok rx :: rest) :
    s.nextAnswer rx.length = .ok rx := by
  simp [State.nextAnswer, h, receive_of_length]

theorem nextAnswer_listed_fault {s : State} {e : TFault} {rest : List Answer} (h : s.answers = .fault e :: rest) (n : Nat) :
    s.nextAnswer n = .fault e := by
  simp [State.nextAnswer, h]

/-! ### Scripts (10_state.md R24, R25) -/

@[simp] theorem seqStateAt_of_pollLoop {script : List ScriptStep} {k : Nat} (h : script[k]? = some .pollLoop) :
    seqStateAt script k = .awaitingNotBusy := by
  simp [seqStateAt, h]

@[simp] theorem seqStateAt_of_frame {script : List ScriptStep} {k : Nat} {f : Frame} (h : script[k]? = some (.frame f)) :
    seqStateAt script k = .issuing := by
  simp [seqStateAt, h]

/-- An active request's `st` is never IDLE. -/
theorem seqStateAt_ne_idle (script : List ScriptStep) (k : Nat) : seqStateAt script k ≠ .idle := by
  unfold seqStateAt; split <;> simp

/-! ### One step of a script (40_status_wait.md R101, R102) -/

/-- Moving on from a step: completion at the end of the script, else the next step. -/
theorem advanceSp_cases (p : Plan) (s : State) :
    ((s.sp + 1).toNat = p.script.length ∧
      advanceSp p s = endRequest (.ok (p.value s.rx) (p.data s.rx)) { s with sp := s.sp + 1 }) ∨
    ((s.sp + 1).toNat ≠ p.script.length ∧
      advanceSp p s = { s with sp := s.sp + 1, st := seqStateAt p.script (s.sp + 1).toNat }) := by
  unfold advanceSp
  by_cases h : (s.sp + 1).toNat = p.script.length
  · left; exact ⟨h, if_pos h⟩
  · right; exact ⟨h, if_neg h⟩

/-- A FRAME step: a fault ends the request, an answer is kept or not and the script moves on. -/
theorem frameStep_cases (p : Plan) (f : Frame) (s : State) :
    (∃ e, s.nextAnswer f.n = .fault e ∧
      frameStep p f s = raiseTransportFault e (s.transacted f.kind f.tx f.n)) ∨
    (∃ rx, s.nextAnswer f.n = .ok rx ∧
      frameStep p f s =
        advanceSp p { s.transacted f.kind f.tx f.n with rx := if f.keep then rx else s.rx }) := by
  unfold frameStep
  cases h : s.nextAnswer f.n with
  | fault e => exact .inl ⟨e, rfl, rfl⟩
  | ok rx =>
    refine .inr ⟨rx, rfl, ?_⟩
    cases f.keep <;> rfl

/-- A poll: a fault ends the request, BUSY leaves the step, not BUSY moves on. -/
theorem pollStep_cases (p : Plan) (s : State) :
    (∃ e, s.nextAnswer 1 = .fault e ∧ pollStep p s = raiseTransportFault e (s.transacted .sendRead [0x05] 1)) ∨
    (∃ rx, s.nextAnswer 1 = .ok rx ∧
      ((busy (firstByte rx) = true ∧ pollStep p s = s.transacted .sendRead [0x05] 1) ∨
       (busy (firstByte rx) = false ∧ pollStep p s = advanceSp p (s.transacted .sendRead [0x05] 1)))) := by
  unfold pollStep
  show (∃ e, s.nextAnswer Frame.statusRead.n = .fault e ∧ _) ∨ (∃ rx, s.nextAnswer Frame.statusRead.n = .ok rx ∧ _)
  cases h : s.nextAnswer Frame.statusRead.n with
  | fault e => exact .inl ⟨e, rfl, rfl⟩
  | ok rx =>
    refine .inr ⟨rx, rfl, ?_⟩
    cases hb : busy (firstByte rx)
    · exact .inr ⟨rfl, by simp [hb]; rfl⟩
    · exact .inl ⟨rfl, by simp [hb]; rfl⟩

theorem takeStep_frame {p : Plan} {s : State} {f : Frame} (h : p.script[s.sp.toNat]? = some (.frame f)) :
    takeStep p s = .next (frameStep p f s) := by
  simp [takeStep, h]

theorem takeStep_poll {p : Plan} {s : State} (h : p.script[s.sp.toNat]? = some .pollLoop) :
    takeStep p s = .next (pollStep p s) := by
  simp [takeStep, h]

/-- A step that answers a next state had a step to take. -/
theorem takeStep_next {p : Plan} {s t : State} (h : takeStep p s = .next t) :
    (∃ f, p.script[s.sp.toNat]? = some (.frame f) ∧ t = frameStep p f s) ∨
    (p.script[s.sp.toNat]? = some .pollLoop ∧ t = pollStep p s) := by
  unfold takeStep at h
  split at h
  · rename_i f hf; cases h; exact .inl ⟨f, hf, rfl⟩
  · rename_i hp; cases h; exact .inr ⟨hp, rfl⟩
  · cases h

/-! ### The meaning of a request (40_status_wait.md R100, R101, 20_memory.md R50) -/

theorem runRequest_idle {r : Request} {p : Plan} {s : State} (h : s.st = .idle) :
    runRequest r p s = .next (accept r p s) := by
  simp [runRequest, h]

theorem runRequest_active {r : Request} {p : Plan} {s : State} (h : s.st ≠ .idle) (hr : s.req = r) :
    runRequest r p s = takeStep p s := by
  unfold runRequest
  split
  · contradiction
  · exact if_pos hr
  · exact if_pos hr

theorem runRequest_held {r : Request} {p : Plan} {s : State} (h : s.st ≠ .idle) (hr : s.req ≠ r) :
    runRequest r p s = .next s := by
  unfold runRequest
  split
  · contradiction
  · exact if_neg hr
  · exact if_neg hr

/-- What an OP decodes to runs as the request with that OP and those fields, on the dispatcher's plan (30_encoding.md R82). -/
theorem exec_of_decodeOp {op : BitVec 8} {f : Operands} {i : Instr} (h : decodeOp op f = .ok i) (s : State) :
    ∃ p, planOf s.cfg i = some p ∧ exec i s = runRequest (f.request op) p s := by
  unfold decodeOp at h
  split at h <;> first | (cases h; exact ⟨_, rfl, rfl⟩) | cases h

/-- A latched request's instruction runs as that request. -/
theorem exec_of_request {r : Request} {i : Instr} (h : r.decode = .ok i) (s : State) :
    ∃ p, planOf s.cfg i = some p ∧ requestPlan r s.cfg = some p ∧ exec i s = runRequest r p s := by
  obtain ⟨p, hp, he⟩ := exec_of_decodeOp (op := r.op) (f := r.operands) h s
  exact ⟨p, hp, by simp [requestPlan, h, hp], he⟩

/-! ### What a step does: the inversion -/

/-- One step taken by the plan's current step. -/
def ScriptStep.effect (p : Plan) (s : State) : ScriptStep → State
  | .frame f => frameStep p f s
  | .pollLoop => pollStep p s

theorem takeStep_some {p : Plan} {s : State} {c : ScriptStep} (h : p.script[s.sp.toNat]? = some c) :
    takeStep p s = .next (c.effect p s) := by
  cases c <;> simp [takeStep, h, ScriptStep.effect]

theorem fetch_reset {s : State} (h : s.resetAsserted = true) : fetch s = .event (blockReset s.sampled) := by
  simp [fetch, h]

theorem fetch_idle {s : State} (h : s.resetAsserted = false) (hi : s.st = .idle) : fetch s = fetchIdle s.sampled := by
  simp [fetch, h, hi]

theorem fetch_active {s : State} (h : s.resetAsserted = false) (hi : s.st ≠ .idle) : fetch s = fetchActive s.sampled := by
  unfold fetch
  rw [if_neg (by simp [h])]
  split
  · contradiction
  · rfl
  · rfl

/-- Everything a step that answers a next state can have done: a reset; nothing; an illegal request; an accept; one step of
the active request's script. -/
theorem step_cases {s t : State} (h : step s = .next t) :
    (s.resetAsserted = true ∧ t = blockReset s.sampled) ∨
    (s.resetAsserted = false ∧ s.st = .idle ∧ s.requests = [] ∧ t = s.sampled) ∨
    (s.resetAsserted = false ∧ s.st = .idle ∧ ∃ w q e, s.requests = w :: q ∧ decodeRequest w = .error e ∧
      t = acceptIllegal (Request.ofWord w) { s.sampled with requests := q }) ∨
    (s.resetAsserted = false ∧ s.st = .idle ∧ ∃ w q p, s.requests = w :: q ∧
      requestPlan (Request.ofWord w) s.cfg = some p ∧
      t = accept (Request.ofWord w) p { s.sampled with requests := q }) ∨
    (s.resetAsserted = false ∧ s.st ≠ .idle ∧ ∃ p c, requestPlan s.req s.cfg = some p ∧
      p.script[s.sp.toNat]? = some c ∧ t = c.effect p s.sampled) := by
  unfold step at h
  cases hr : s.resetAsserted with
  | true => rw [fetch_reset hr] at h; cases h; exact .inl ⟨rfl, rfl⟩
  | false =>
    right
    by_cases hi : s.st = .idle
    · rw [fetch_idle hr hi] at h
      cases hq : s.requests with
      | nil => simp only [fetchIdle, sampled_requests, hq] at h; cases h; exact .inl ⟨rfl, hi, rfl, rfl⟩
      | cons w q =>
        right
        simp only [fetchIdle, sampled_requests, hq] at h
        cases hd : decodeRequest w with
        | error e => rw [hd] at h; cases h; exact .inl ⟨rfl, hi, w, q, e, rfl, hd, rfl⟩
        | ok i =>
          right; left
          rw [hd] at h
          obtain ⟨p, _, hp, he⟩ := exec_of_request hd { s.sampled with requests := q }
          refine ⟨rfl, hi, w, q, p, rfl, hp, ?_⟩
          have hn : exec i { s.sampled with requests := q } = .next t := h
          rw [he, runRequest_idle (by exact hi)] at hn
          cases hn; rfl
    · rw [fetch_active hr hi, fetchActive] at h
      right; right; right
      cases hd : s.sampled.req.decode with
      | error e => rw [hd] at h; cases h
      | ok i =>
        rw [hd] at h
        obtain ⟨p, _, hp, he⟩ := exec_of_request hd s.sampled
        have hn : exec i s.sampled = .next t := h
        rw [he, runRequest_active (s := s.sampled) hi rfl] at hn
        refine ⟨rfl, hi, p, ?_⟩
        cases hc : p.script[s.sp.toNat]? with
        | none => simp [takeStep, hc] at hn
        | some c => rw [takeStep_some (s := s.sampled) hc] at hn; cases hn; exact ⟨c, hp, rfl, rfl⟩

/-- The step of an active request whose script has a current step. -/
theorem step_active {s : State} {p : Plan} {c : ScriptStep} (hr : s.resetAsserted = false) (hi : s.st ≠ .idle)
    (hp : requestPlan s.req s.cfg = some p) (hc : p.script[s.sp.toNat]? = some c) :
    step s = .next (c.effect p s.sampled) := by
  unfold step
  rw [fetch_active hr hi, fetchActive]
  cases hd : s.req.decode with
  | error e => simp [requestPlan, hd] at hp
  | ok i =>
    rw [show s.sampled.req.decode = .ok i from hd]
    obtain ⟨p', _, hp', he⟩ := exec_of_request hd s.sampled
    rw [show requestPlan s.req s.sampled.cfg = requestPlan s.req s.cfg from rfl, hp] at hp'
    cases hp'
    show exec i s.sampled = _
    rw [he, runRequest_active (s := s.sampled) (r := s.req) hi rfl]
    exact takeStep_some hc

/-- A step as one equation: the reset, the accept or the illegal request while IDLE, one step of the script while active,
and the two stuck states. -/
theorem step_eq (s : State) : step s =
  if s.resetAsserted then .next (blockReset s.sampled) else
  if s.st = .idle then (match s.requests with
    | [] => .next s.sampled
    | w :: q => match requestPlan (Request.ofWord w) s.cfg with
      | some p => .next (accept (Request.ofWord w) p { s.sampled with requests := q })
      | none => .next (acceptIllegal (Request.ofWord w) { s.sampled with requests := q }))
  else match requestPlan s.req s.cfg with
    | none => .fault .activeReservedOp
    | some p => match p.script[s.sp.toNat]? with
      | none => .fault .noScriptStep
      | some c => .next (c.effect p s.sampled) := by
  cases hr : s.resetAsserted with
  | true => rw [step, fetch_reset hr]; rfl
  | false =>
    rw [if_neg (by simp)]
    by_cases hi : s.st = .idle
    · rw [if_pos hi]
      cases hq : s.requests with
      | nil => simp only [step, fetch_idle hr hi, fetchIdle, sampled_requests, hq]
      | cons w q =>
        cases hd : decodeRequest w with
        | error e =>
          have hd' : (Request.ofWord w).decode = .error e := hd
          simp only [step, fetch_idle hr hi, fetchIdle, sampled_requests, hq, hd, requestPlan, hd']
        | ok i =>
          obtain ⟨p, _, hp, he⟩ := exec_of_request hd { s.sampled with requests := q }
          simp only [step, fetch_idle hr hi, fetchIdle, sampled_requests, hq, hd, he]
          rw [show requestPlan (Request.ofWord w) s.cfg = some p from hp]
          exact runRequest_idle hi
    · rw [if_neg hi]
      cases hp : requestPlan s.req s.cfg with
      | none =>
        rw [step, fetch_active hr hi, fetchActive]
        cases hd : s.req.decode with
        | error e => rw [show s.sampled.req.decode = _ from hd]
        | ok i => obtain ⟨p, _, h, _⟩ := exec_of_request hd s; rw [hp] at h; cases h
      | some p =>
        cases hc : p.script[s.sp.toNat]? with
        | some c => rw [step_active hr hi hp hc]; simp only [hc]
        | none =>
          rw [step, fetch_active hr hi, fetchActive]
          cases hd : s.req.decode with
          | error e => simp [requestPlan, hd] at hp
          | ok i =>
            rw [show s.sampled.req.decode = .ok i from hd]
            obtain ⟨p', _, hp', he⟩ := exec_of_request hd s.sampled
            rw [show requestPlan s.req s.sampled.cfg = requestPlan s.req s.cfg from rfl, hp] at hp'
            cases hp'
            show exec i s.sampled = _
            rw [he, runRequest_active (s := s.sampled) (r := s.req) hi rfl]
            simp [takeStep, hc]

end Sys2Proof.Machine
end

