-- ==== Sys2Proof/Laws/PerInstr.lean ====
section
/-! SUPPORT. A fact about every instruction, one lemma for each constructor: its encoding begins with the opcode value that
spec/opcode_table.json gives its row, in bits 7:0 of a request word (30_encoding.md R71, R74) and in the first byte of a chip
frame (R79, R80). -/

namespace Sys2Proof.Laws.EncodesOpcode

/-- The `match` value of each row of spec/opcode_table.json. -/
def opcode : Instr → Byte
  | .readStatus _ => 0x01
  | .isBusy _ => 0x02
  | .wait _ => 0x03
  | .poll _ => 0x04
  | .enableWrite _ => 0x05
  | .readByte _ => 0x06
  | .readBytes _ => 0x07
  | .writeByte _ => 0x08
  | .chipErase _ => 0x09
  | .erase4kBlock _ => 0x0A
  | .erase32kBlock _ => 0x0B
  | .erase64kBlock _ => 0x0C
  | .sleep _ => 0x0D
  | .wakeup _ => 0x0E
  | .readDeviceId _ => 0x0F
  | .readUniqueId _ => 0x10
  | .frameStatusRead => 0x05
  | .frameStatusWrite _ => 0x01
  | .frameWriteEnable => 0x06
  | .frameBlockErase4k _ => 0x20
  | .frameBlockErase32k _ => 0x52
  | .frameBlockErase64k _ => 0xD8
  | .frameChipErase => 0x60
  | .frameBytePageProgram _ _ => 0x02
  | .frameArrayRead _ _ => 0x0B
  | .frameArrayReadLowFreq _ _ => 0x03
  | .frameIdRead => 0x9F
  | .frameMacRead => 0x4B
  | .frameSleep => 0xB9
  | .frameWake => 0xAB

/-- Bits 7:0 of a request word, the first byte of a frame. -/
def firstByte : Code → Option Byte
  | .request w => some (w.extractLsb' 0 8)
  | .frame f => f.tx.head?

/-- The instruction's encoding begins with its row's opcode. -/
def Statement (i : Instr) : Prop :=
  Sys2Proof.Laws.EncodesOpcode.firstByte (encode i) = some (opcode i)

/-- A request word's bits 7:0 are its OP. -/
theorem firstByte_request (op : BitVec 8) (f : Operands) : firstByte (.request (f.request op).toWord) = some op := by
  rw [firstByte, ← ofWord_op, ofWord_toWord]; rfl

theorem readStatus (f : Operands) : Statement (.readStatus f) := firstByte_request _ _
theorem isBusy (f : Operands) : Statement (.isBusy f) := firstByte_request _ _
theorem wait (f : Operands) : Statement (.wait f) := firstByte_request _ _
theorem poll (f : Operands) : Statement (.poll f) := firstByte_request _ _
theorem enableWrite (f : Operands) : Statement (.enableWrite f) := firstByte_request _ _
theorem readByte (f : Operands) : Statement (.readByte f) := firstByte_request _ _
theorem readBytes (f : Operands) : Statement (.readBytes f) := firstByte_request _ _
theorem writeByte (f : Operands) : Statement (.writeByte f) := firstByte_request _ _
theorem chipErase (f : Operands) : Statement (.chipErase f) := firstByte_request _ _
theorem erase4kBlock (f : Operands) : Statement (.erase4kBlock f) := firstByte_request _ _
theorem erase32kBlock (f : Operands) : Statement (.erase32kBlock f) := firstByte_request _ _
theorem erase64kBlock (f : Operands) : Statement (.erase64kBlock f) := firstByte_request _ _
theorem sleep (f : Operands) : Statement (.sleep f) := firstByte_request _ _
theorem wakeup (f : Operands) : Statement (.wakeup f) := firstByte_request _ _
theorem readDeviceId (f : Operands) : Statement (.readDeviceId f) := firstByte_request _ _
theorem readUniqueId (f : Operands) : Statement (.readUniqueId f) := firstByte_request _ _
theorem frameStatusRead : Statement .frameStatusRead := rfl
theorem frameStatusWrite (d : Byte) : Statement (.frameStatusWrite d) := rfl
theorem frameWriteEnable : Statement .frameWriteEnable := rfl
theorem frameBlockErase4k (a : Addr24) : Statement (.frameBlockErase4k a) := rfl
theorem frameBlockErase32k (a : Addr24) : Statement (.frameBlockErase32k a) := rfl
theorem frameBlockErase64k (a : Addr24) : Statement (.frameBlockErase64k a) := rfl
theorem frameChipErase : Statement .frameChipErase := rfl
theorem frameBytePageProgram (a : Addr24) (d : Byte) : Statement (.frameBytePageProgram a d) := rfl
theorem frameArrayRead (a : Addr24) (n : BitVec 16) : Statement (.frameArrayRead a n) := rfl
theorem frameArrayReadLowFreq (a : Addr24) (n : BitVec 16) : Statement (.frameArrayReadLowFreq a n) := rfl
theorem frameIdRead : Statement .frameIdRead := rfl
theorem frameMacRead : Statement .frameMacRead := rfl
theorem frameSleep : Statement .frameSleep := rfl
theorem frameWake : Statement .frameWake := rfl

end Sys2Proof.Laws.EncodesOpcode
end

