-- ==== Sys2Proof/Laws/Run.lean ====
section
/-! SUPPORT. Runs of several steps, one step at a time; the effect of a step of a script as `stepEffect` says it, once for
every plan. -/

namespace Sys2Proof.Machine

@[simp] theorem run_zero (s : State) : run 0 s = .next s := rfl

/-- A run of `k + 1` steps is a step and a run of `k`. -/
theorem run_succ_of_next {s t : State} (k : Nat) (h : step s = .next t) : run (k + 1) s = run k t := by
  have h' : Sys2Proof.core.step s = .next t := h
  simp only [run, Host.Core.run, h']
  rfl

/-- A run that answers a next state began with a step that did. -/
theorem run_succ_next {s t : State} {k : Nat} (h : run (k + 1) s = .next t) : ∃ u, step s = .next u ∧ run k u = .next t := by
  unfold run at h
  simp only [Host.Core.run] at h
  cases hs : step s with
  | next u =>
    have h' : Sys2Proof.core.step s = .next u := hs
    rw [h'] at h; exact ⟨u, rfl, h⟩
  | fault r =>
    have h' : Sys2Proof.core.step s = .fault r := hs
    rw [h'] at h; cases h
  | refused r =>
    have h' : Sys2Proof.core.step s = .refused r := hs
    rw [h'] at h; cases h

/-- Runs follow one another. -/
theorem run_add {s t : State} (j k : Nat) (h : run j s = .next t) : run (j + k) s = run k t := by
  induction j generalizing s with
  | zero => cases h; simp
  | succ j ih =>
    obtain ⟨u, hu, hr⟩ := run_succ_next h
    rw [Nat.add_right_comm, run_succ_of_next _ hu, ih hr]

/-- The observation's transactions and responses of two observations in turn. -/
@[simp] theorem transactionsOf_append (a b : List Event) : transactionsOf (a ++ b) = transactionsOf a ++ transactionsOf b := by
  induction a with
  | nil => rfl
  | cons e es ih => cases e <;> simp [transactionsOf, ih]

@[simp] theorem repliesOf_append (a b : List Event) : repliesOf (a ++ b) = repliesOf a ++ repliesOf b := by
  induction a with
  | nil => rfl
  | cons e es ih => cases e <;> simp [repliesOf, ih]

/-- A list of transactions holds just those, and no response; whatever the list is made from. -/
@[simp] theorem transactionsOf_map {α : Type} (f : α → Transaction) (l : List α) :
    transactionsOf (l.map fun x => .transaction (f x)) = l.map f := by
  induction l with
  | nil => rfl
  | cons x xs ih => simp [transactionsOf, ih]

@[simp] theorem repliesOf_map {α : Type} (f : α → Transaction) (l : List α) :
    repliesOf (l.map fun x => .transaction (f x)) = [] := by
  induction l with
  | nil => rfl
  | cons x xs ih => simp [repliesOf, ih]

@[simp] theorem transactionsOf_map_comp {α : Type} (f : α → Transaction) (l : List α) :
    transactionsOf (l.map (Event.transaction ∘ f)) = l.map f := transactionsOf_map f l

@[simp] theorem repliesOf_map_comp {α : Type} (f : α → Transaction) (l : List α) :
    repliesOf (l.map (Event.transaction ∘ f)) = [] := repliesOf_map f l

@[simp] theorem transactionsOf_map_id (l : List Transaction) : transactionsOf (l.map .transaction) = l := by
  simpa using transactionsOf_map id l

@[simp] theorem repliesOf_map_id (l : List Transaction) : repliesOf (l.map .transaction) = [] :=
  repliesOf_map id l

/-! ### The step's effect -/

theorem movedOn_advanceSp {s s1 : State} {p : Plan} {x : Transaction} (hsp : s1.sp = s.sp) (hresp : s1.resp = s.resp)
    (htr : s1.trace = s.trace ++ [.transaction x]) : s.movedOn (advanceSp p s1) p x := by
  unfold State.movedOn
  rcases advanceSp_cases p s1 with ⟨h, e⟩ | ⟨h, e⟩ <;> rw [e]
  · refine ⟨by simp [hsp], ?_⟩
    rw [if_pos (by exact h)]
    simp [State.endedOk, htr]
  · refine ⟨by simp [hsp], ?_⟩
    rw [if_neg (by exact h)]
    refine ⟨hresp, htr, ?_⟩
    simp only [seqStateAt]
    split <;> split <;> simp_all

theorem settled_advanceSp {s s1 : State} (p : Plan) (h : s.settled s1) : s.settled (advanceSp p s1) := by
  rcases advanceSp_cases p s1 with ⟨_, e⟩ | ⟨_, e⟩ <;> rw [e] <;> exact h

@[simp] theorem advanceSp_rx (p : Plan) (s : State) : (advanceSp p s).rx = s.rx := by
  rcases advanceSp_cases p s with ⟨_, e⟩ | ⟨_, e⟩ <;> simp [e]

theorem stepEffect_frameStep (s : State) (p : Plan) (f : Frame) : s.stepEffect (frameStep p f s) p (.frame f) := by
  unfold State.stepEffect
  rw [show (ScriptStep.frame f).sent = f from rfl]
  rcases frameStep_cases p f s with ⟨e, h, he⟩ | ⟨rx, h, he⟩ <;> rw [he, h]
  · exact ⟨⟨rfl, rfl, rfl, rfl, rfl⟩, by simp [raiseTransportFault, State.endedFault, h, answered]⟩
  · refine ⟨settled_advanceSp p ⟨rfl, rfl, rfl, rfl, rfl⟩, advanceSp_rx _ _, movedOn_advanceSp rfl rfl ?_⟩
    simp [h, answered]

theorem stepEffect_pollStep (s : State) (p : Plan) : s.stepEffect (pollStep p s) p .pollLoop := by
  unfold State.stepEffect
  rw [show ScriptStep.pollLoop.sent.n = 1 from rfl]
  rcases pollStep_cases p s with ⟨e, h, he⟩ | ⟨rx, h, ⟨hb, he⟩ | ⟨hb, he⟩⟩ <;> rw [he, h]
  · exact ⟨⟨rfl, rfl, rfl, rfl, rfl⟩, by simp [raiseTransportFault, State.endedFault, h, answered, ScriptStep.sent]⟩
  · refine ⟨⟨rfl, rfl, rfl, rfl, rfl⟩, rfl, ?_⟩
    rw [if_pos (by exact hb)]
    simp [h, answered, ScriptStep.sent]
  · refine ⟨settled_advanceSp p ⟨rfl, rfl, rfl, rfl, rfl⟩, advanceSp_rx _ _, ?_⟩
    rw [if_neg (by simpa [busy, firstByte] using hb)]
    refine movedOn_advanceSp rfl rfl ?_
    simp [h, answered, ScriptStep.sent]

/-- Whatever the step of a script is, taking it has the effect that R101 gives it. -/
theorem stepEffect_effect (s : State) (p : Plan) (c : ScriptStep) : s.stepEffect (c.effect p s) p c := by
  cases c
  · exact stepEffect_frameStep _ _ _
  · exact stepEffect_pollStep _ _

/-- The current step of a request comes from its plan. -/
theorem plan_of_currentStep {s : State} {c : ScriptStep} (h : s.currentStep = some c) :
    ∃ p, requestPlan s.req s.cfg = some p ∧ p.script[s.sp.toNat]? = some c := by
  unfold State.currentStep at h
  split at h
  · exact ⟨_, by assumption, h⟩
  · cases h

end Sys2Proof.Machine
end

