-- ==== Sys2Proof/Tests/Slice0.lean ====
section
/-! SUPPORT. The model's own tests: well-formedness, decoding of words written out from the spec's encodings, single steps on
small states whose expected results are those of 95_test_vectors.md, and a witness for the hypotheses of every statement. -/

open Sys2Proof Sys2Proof.Machine

namespace Sys2Proof.Tests

/-! ### Small states -/

/-- The configuration of 95_test_vectors.md: the defaults, with READ_SPEED = FAST. -/
def cfg0 : Config := { readSpeed := .fast, weSeq := .wren, wrsrValue := 0x00, prePoll := false }

/-- The configuration of V-L2-E3: the longest script. -/
def cfgLong : Config := { readSpeed := .lowFreq, weSeq := .wrenWrsr, wrsrValue := 0x00, prePoll := true }

/-- An IDLE block just after reset, presented these words, with these answers to come. -/
def presents (cfg : Config) (ws : List ReqWord) (as : List Answer) : State :=
  { State.reset with cfg := cfg, requests := ws, answers := as }

/-- A block active on request word `w` at step `k`, with these answers to come. -/
def midway (cfg : Config) (st : SeqState) (w : ReqWord) (k : BitVec 3) (as : List Answer) : State :=
  { State.reset with cfg := cfg, st := st, req := Request.ofWord w, sp := k, answers := as }

/-- A fault value. -/
def e7 : TFault := { id := 7 }

/-- What the tests look at after a step: `st`, `sp`, `rx`, `resp.valid` and the observation. -/
def seen : Host.Outcome State Fault Refusal → Option (SeqState × BitVec 3 × List Byte × Bool × List Event)
  | .next t => some (t.st, t.sp, t.rx, t.resp.valid, t.trace)
  | .fault _ => none
  | .refused _ => none

/-- The trace notation of 00_scope.md R14. -/
def S (tx : List Byte) : Event := .transaction { kind := .send, tx := tx, n := 0, answer := .ok [] }
def SR (tx : List Byte) (n : Nat) (rx : List Byte) : Event := .transaction { kind := .sendRead, tx := tx, n := n, answer := .ok rx }

/-! ### Well-formedness: an ill-formed term for each check -/

theorem test_unaligned_4k_refused : (Instr.frameBlockErase4k 0x012345).wellFormed = false := by decide
theorem test_unaligned_32k_refused : (Instr.frameBlockErase32k 0x01F000).wellFormed = false := by decide
theorem test_unaligned_64k_refused : (Instr.frameBlockErase64k 0x018000).wellFormed = false := by decide

/-! ### Decoding: words written out from V-L2-ENC and R74, frames from R79 and R80 -/

theorem test_decode_requests :
    decode (.request 0xFFFFFFFFFFFFFF01) = .ok (.readStatus ⟨0xFF, 0xFFFF, 0xFFFFFFFF⟩) ∧
    decode (.request 0x0000000000000002) = .ok (.isBusy ⟨0, 0, 0⟩) ∧
    decode (.request 0x0000000000000003) = .ok (.wait ⟨0, 0, 0⟩) ∧
    decode (.request 0x0000000000000004) = .ok (.poll ⟨0, 0, 0⟩) ∧
    decode (.request 0x0000000000000005) = .ok (.enableWrite ⟨0, 0, 0⟩) ∧
    decode (.request 0xFF12345600000006) = .ok (.readByte ⟨0, 0, 0xFF123456⟩) ∧
    decode (.request 0x00FFFFFFFFFF0007) = .ok (.readBytes ⟨0, 65535, 0xFFFFFF⟩) ∧
    decode (.request 0x0000020000003C08) = .ok (.writeByte ⟨0x3C, 0, 0x200⟩) := by decide

theorem test_decode_requests_2 :
    decode (.request 0x0000000000000009) = .ok (.chipErase ⟨0, 0, 0⟩) ∧
    decode (.request 0x000123450000000A) = .ok (.erase4kBlock ⟨0, 0, 0x12345⟩) ∧
    decode (.request 0x00ABCDEF0000000B) = .ok (.erase32kBlock ⟨0, 0, 0xABCDEF⟩) ∧
    decode (.request 0x0001FFFF0000000C) = .ok (.erase64kBlock ⟨0, 0, 0x1FFFF⟩) ∧
    decode (.request 0x000000000000000D) = .ok (.sleep ⟨0, 0, 0⟩) ∧
    decode (.request 0x000000000000000E) = .ok (.wakeup ⟨0, 0, 0⟩) ∧
    decode (.request 0x000000000000000F) = .ok (.readDeviceId ⟨0, 0, 0⟩) ∧
    decode (.request 0x0000000000000010) = .ok (.readUniqueId ⟨0, 0, 0⟩) := by decide

theorem test_decode_reserved :
    decode (.request 0x0000000000000000) = .error (.reservedOp 0x00) ∧
    decode (.request 0x0000000000000011) = .error (.reservedOp 0x11) ∧
    decode (.request 0x00000000000000FF) = .error (.reservedOp 0xFF) ∧
    decode (.request 0x0000000000000100) = .error (.reservedOp 0x00) := by decide

theorem test_decode_frames :
    decode (.frame ⟨.sendRead, [0x05], 1, true⟩) = .ok .frameStatusRead ∧
    decode (.frame ⟨.send, [0x01, 0x5A], 0, false⟩) = .ok (.frameStatusWrite 0x5A) ∧
    decode (.frame ⟨.send, [0x06], 0, false⟩) = .ok .frameWriteEnable ∧
    decode (.frame ⟨.send, [0x20, 0x01, 0x20, 0x00], 0, false⟩) = .ok (.frameBlockErase4k 0x012000) ∧
    decode (.frame ⟨.send, [0x52, 0xAB, 0x80, 0x00], 0, false⟩) = .ok (.frameBlockErase32k 0xAB8000) ∧
    decode (.frame ⟨.send, [0xD8, 0xAB, 0x00, 0x00], 0, false⟩) = .ok (.frameBlockErase64k 0xAB0000) ∧
    decode (.frame ⟨.send, [0x60], 0, false⟩) = .ok .frameChipErase := by decide

theorem test_decode_frames_2 :
    decode (.frame ⟨.send, [0x02, 0x00, 0x10, 0x00, 0xA5], 0, false⟩) = .ok (.frameBytePageProgram 0x001000 0xA5) ∧
    decode (.frame ⟨.sendRead, [0x0B, 0x12, 0x34, 0x56, 0x00], 1, true⟩) = .ok (.frameArrayRead 0x123456 1) ∧
    decode (.frame ⟨.sendRead, [0x03, 0x12, 0x34, 0x56], 65535, true⟩) = .ok (.frameArrayReadLowFreq 0x123456 65535) ∧
    decode (.frame ⟨.sendRead, [0x9F], 2, true⟩) = .ok .frameIdRead ∧
    decode (.frame ⟨.sendRead, [0x4B], 8, true⟩) = .ok .frameMacRead ∧
    decode (.frame ⟨.send, [0xB9], 0, false⟩) = .ok .frameSleep ∧
    decode (.frame ⟨.send, [0xAB], 0, false⟩) = .ok .frameWake := by decide

theorem test_decode_frames_refused :
    decode (.frame ⟨.send, [0x20, 0x01, 0x23, 0x00], 0, false⟩) = .error (.unalignedErase 0x20 0x012300) ∧
    decode (.frame ⟨.sendRead, [0x0B, 0x12, 0x34, 0x56, 0x01], 1, true⟩) = .error (.wrongDummy 0x01) ∧
    decode (.frame ⟨.send, [0xC7], 0, false⟩) = .error (.unknownChipOpcode 0xC7) ∧
    decode (.frame ⟨.sendRead, [0x9F], 3, true⟩) = .error (.wrongTransaction 0x9F) := by decide

/-- R85: the limits of each literal. -/
theorem test_assembler_limits :
    asmRequest "erase_4k_block".toList [0xFFFFFFFF] = .ok 0xFFFFFFFF0000000A ∧
    asmRequest "erase_4k_block".toList [0x100000000] = .error .literalOutOfRange ∧
    asmRequest "read_bytes".toList [0, 65536] = .error .literalOutOfRange ∧
    asmRequest "write_byte".toList [0, 256] = .error .literalOutOfRange ∧
    asmRequest "write_byte".toList [0] = .error .wrongOperandCount := by decide

/-! ### The first step from an IDLE block (R100) -/

theorem test_accept_ungated :
    seen (step (presents cfg0 [0x000000000000000D] [])) = some (.issuing, 0, [], false, []) := by decide
theorem test_accept_wait :
    seen (step (presents cfg0 [0x0000000000000003] [])) = some (.awaitingNotBusy, 0, [], false, []) := by decide
theorem test_accept_gated_pre_poll :
    seen (step (presents cfgLong [0x0001FFFF0000000C] [])) = some (.awaitingNotBusy, 0, [], false, []) := by decide
theorem test_illegal_x2 :
    seen (step (presents cfg0 [0xFFFFFFFFFFFFFF11] [])) = some (.idle, 0, [], true, [.reply .illegalRequest]) := by decide
theorem test_illegal_x1 :
    seen (step (presents cfg0 [0x0000000000000000] [])) = some (.idle, 0, [], true, [.reply .illegalRequest]) := by decide

/-! ### Status requests (V-L2-S, V-L1-4, V-L1-5) -/

theorem test_read_status_s2 : seen (step (midway cfg0 .issuing 0x01 0 [.ok [0xFF]])) =
    some (.idle, 1, [0xFF], true, [SR [0x05] 1 [0xFF], .reply (.ok 0xFF [])]) := by decide
theorem test_read_status_s3 : seen (step (midway cfg0 .issuing 0x01 0 [.fault e7])) =
    some (.idle, 0, [], true, [.transaction ⟨.sendRead, [0x05], 1, .fault e7⟩, .reply (.transportFault e7 0)]) := by decide
theorem test_is_busy_s4 : seen (step (midway cfg0 .issuing 0x02 0 [.ok [0x03]])) =
    some (.idle, 1, [0x03], true, [SR [0x05] 1 [0x03], .reply (.ok 1 [])]) := by decide
theorem test_is_busy_fe : seen (step (midway cfg0 .issuing 0x02 0 [.ok [0xFE]])) =
    some (.idle, 1, [0xFE], true, [SR [0x05] 1 [0xFE], .reply (.ok 0 [])]) := by decide
theorem test_wait_ff_stays : seen (step (midway cfg0 .awaitingNotBusy 0x03 0 [.ok [0xFF], .ok [0xFE]])) =
    some (.awaitingNotBusy, 0, [], false, [SR [0x05] 1 [0xFF]]) := by decide
theorem test_wait_fe_ends : seen (step (midway cfg0 .awaitingNotBusy 0x03 0 [.ok [0xFE]])) =
    some (.idle, 1, [], true, [SR [0x05] 1 [0xFE], .reply (.ok 0 [])]) := by decide
theorem test_poll_s6 : seen (step (midway cfg0 .issuing 0x04 0 [.ok [0x02]])) =
    some (.idle, 1, [0x02], true, [SR [0x05] 1 [0x02], .reply (.ok 0 [])]) := by decide
theorem test_poll_s7 : seen (step (midway cfg0 .issuing 0x04 0 [.ok [0x01]])) =
    some (.idle, 1, [0x01], true, [SR [0x05] 1 [0x01], .reply (.ok 1 [])]) := by decide

/-! ### Write-enable (V-L2-W) -/

theorem test_enable_write_w3 : seen (step (midway { cfg0 with weSeq := .wrsr } .issuing 0x05 0 [.ok []])) =
    some (.awaitingNotBusy, 1, [], false, [S [0x01, 0x00]]) := by decide
theorem test_enable_write_w7 : seen (step (midway cfg0 .awaitingNotBusy 0x05 1 [.fault e7])) =
    some (.idle, 1, [], true, [.transaction ⟨.sendRead, [0x05], 1, .fault e7⟩, .reply (.transportFault e7 1)]) := by decide

/-! ### Array reads (V-L2-R) -/

theorem test_read_byte_r3 : seen (step (midway cfg0 .issuing 0xFF12345600000006 0 [.ok [0x77]])) =
    some (.idle, 1, [0x77], true, [SR [0x0B, 0x12, 0x34, 0x56, 0x00] 1 [0x77], .reply (.ok 0x77 [0x77])]) := by decide
theorem test_read_byte_r2 : seen (step (midway { cfg0 with readSpeed := .lowFreq } .issuing 0x0012345600000006 0 [.ok [0x5A]])) =
    some (.idle, 1, [0x5A], true, [SR [0x03, 0x12, 0x34, 0x56] 1 [0x5A], .reply (.ok 0x5A [0x5A])]) := by decide
theorem test_read_bytes_r5 : seen (step (midway cfg0 .issuing 0x0000100000040007 0 [.ok [0xDE, 0xAD, 0xBE, 0xEF]])) =
    some (.idle, 1, [0xDE, 0xAD, 0xBE, 0xEF], true,
      [SR [0x0B, 0x00, 0x10, 0x00, 0x00] 4 [0xDE, 0xAD, 0xBE, 0xEF], .reply (.ok 0 [0xDE, 0xAD, 0xBE, 0xEF])]) := by decide
theorem test_read_bytes_r6 : seen (step (midway cfg0 .issuing 0x0000000000000007 0 [.ok []])) =
    some (.idle, 1, [], true, [SR [0x0B, 0x00, 0x00, 0x00, 0x00] 0 [], .reply (.ok 0 [])]) := by decide

/-! ### Program and erase (V-L2-P, V-L2-E) -/

theorem test_write_byte_p2 : seen (step (midway cfg0 .issuing 0xFF00020000003C08 2 [.ok []])) =
    some (.idle, 3, [], true, [S [0x02, 0x00, 0x02, 0x00, 0x3C], .reply (.ok 0 [])]) := by decide
theorem test_write_byte_p5 : seen (step (midway cfgLong .issuing 0x0000000100000008 4 [.fault e7])) =
    some (.idle, 4, [], true, [.transaction ⟨.send, [0x02, 0x00, 0x00, 0x01, 0x00], 0, .fault e7⟩,
      .reply (.transportFault e7 4)]) := by decide
theorem test_chip_erase_e1 : seen (step (midway cfg0 .issuing 0x09 2 [.ok []])) =
    some (.awaitingNotBusy, 3, [], false, [S [0x60]]) := by decide
theorem test_erase_4k_l1_1 : seen (step (midway cfg0 .issuing 0x000123450000000A 2 [.ok []])) =
    some (.awaitingNotBusy, 3, [], false, [S [0x20, 0x01, 0x20, 0x00]]) := by decide
theorem test_erase_4k_high_bits : seen (step (midway cfg0 .issuing 0xFF0123450000000A 2 [.ok []])) =
    some (.awaitingNotBusy, 3, [], false, [S [0x20, 0x01, 0x20, 0x00]]) := by decide
theorem test_erase_32k_e1 : seen (step (midway cfg0 .issuing 0x0000FFFF0000000B 2 [.ok []])) =
    some (.awaitingNotBusy, 3, [], false, [S [0x52, 0x00, 0x80, 0x00]]) := by decide
theorem test_erase_64k_e3 : seen (step (midway cfgLong .issuing 0x0001FFFF0000000C 4 [.ok []])) =
    some (.awaitingNotBusy, 5, [], false, [S [0xD8, 0x01, 0x00, 0x00]]) := by decide
theorem test_erase_64k_sixth_step : seen (step (midway cfgLong .awaitingNotBusy 0x0001FFFF0000000C 5 [.ok [0x00]])) =
    some (.idle, 6, [], true, [SR [0x05] 1 [0x00], .reply (.ok 0 [])]) := by decide

/-! ### Power and identification (V-L2-PW, V-L2-ID) -/

theorem test_sleep_pw5 : seen (step (midway cfgLong .issuing 0x0D 0 [.ok []])) =
    some (.idle, 1, [], true, [S [0xB9], .reply (.ok 0 [])]) := by decide
theorem test_wakeup_pw3 : seen (step (midway cfg0 .issuing 0x0E 0 [.ok []])) =
    some (.idle, 1, [], true, [S [0xAB], .reply (.ok 0 [])]) := by decide
theorem test_read_device_id_id1 : seen (step (midway cfg0 .issuing 0x0F 0 [.ok [0xEF, 0x40]])) =
    some (.idle, 1, [0xEF, 0x40], true, [SR [0x9F] 2 [0xEF, 0x40], .reply (.ok 0 [0xEF, 0x40])]) := by decide
theorem test_read_unique_id_id4 :
    seen (step (midway cfg0 .issuing 0x10 0 [.ok [0x01, 0x23, 0x45, 0x67, 0x89, 0xAB, 0xCD, 0xEF]])) =
    some (.idle, 1, [0x01, 0x23, 0x45, 0x67, 0x89, 0xAB, 0xCD, 0xEF], true,
      [SR [0x4B] 8 [0x01, 0x23, 0x45, 0x67, 0x89, 0xAB, 0xCD, 0xEF],
       .reply (.ok 0 [0x01, 0x23, 0x45, 0x67, 0x89, 0xAB, 0xCD, 0xEF])]) := by decide

/-! ### Chip frames as the current step (R80, R101) -/

theorem test_frame_status_read : seen (exec .frameStatusRead (midway cfg0 .awaitingNotBusy 0x03 0 [.ok [0x01]])) =
    some (.awaitingNotBusy, 0, [], false, [SR [0x05] 1 [0x01]]) := by decide
theorem test_frame_write_enable : seen (exec .frameWriteEnable (midway cfg0 .issuing 0x05 0 [.ok []])) =
    some (.awaitingNotBusy, 1, [], false, [S [0x06]]) := by decide
theorem test_frame_program :
    seen (exec (.frameBytePageProgram 0x001000 0xA5) (midway cfg0 .issuing 0x000010000000A508 2 [.ok []])) =
    some (.idle, 3, [], true, [S [0x02, 0x00, 0x10, 0x00, 0xA5], .reply (.ok 0 [])]) := by decide
theorem test_frame_array_read :
    seen (exec (.frameArrayRead 0x001000 2) (midway cfg0 .issuing 0x0000100000020007 0 [.ok [0x11, 0x22]])) =
    some (.idle, 1, [0x11, 0x22], true, [SR [0x0B, 0x00, 0x10, 0x00, 0x00] 2 [0x11, 0x22], .reply (.ok 0 [0x11, 0x22])]) := by
  decide
theorem test_frame_idle : seen (exec .frameWake (presents cfg0 [] [])) = some (.idle, 0, [], false, []) := by decide

/-! ### Reset (V-L2-X) -/

theorem test_reset_x5 :
    seen (step { midway cfg0 .awaitingNotBusy 0x09 3 [.ok [0x01]] with resetLine := [true] }) =
    some (.idle, 0, [], false, [.reset]) := by decide

/-! ### The host's view (R201 to R203) -/

theorem test_view_after_program :
    ChipView.after .ready [S [0x06], SR [0x05] 1 [0x00], S [0x02, 0x00, 0x10, 0x00, 0xA5]] = .maybeBusy ∧
    ChipView.after .maybeBusy [SR [0x05] 1 [0x01], SR [0x05] 1 [0x00]] = .ready ∧
    ChipView.allows .maybeBusy cfg0 (.erase4kBlock ⟨0, 0, 0⟩) = false ∧
    ChipView.allows .maybeBusy cfgLong (.erase4kBlock ⟨0, 0, 0⟩) = true := by decide

/-- R203: after a sleep, whatever the chip was doing, only wakeup; then wait. -/
theorem test_view_after_sleep :
    ChipView.after .maybeBusy [S [0xB9], SR [0x05] 1 [0x00]] = .asleep ∧
    ChipView.allows .asleep cfg0 (.wait ⟨0, 0, 0⟩) = false ∧ ChipView.allows .asleep cfg0 (.wakeup ⟨0, 0, 0⟩) = true ∧
    ChipView.after .asleep [S [0xAB], SR [0x05] 1 [0x00]] = .ready := by decide

/-! ### Witnesses: a state and operands that meet the hypotheses of each statement that has any -/

/-- wait, its poll loop about to read busy, busy, not busy. -/
def waiting : State := midway cfg0 .awaitingNotBusy 0x03 0 [.ok [0x01], .ok [0xFF], .ok [0xFE]]

/-- erase_4k_block 0x12345, its erase frame about to go out. -/
def erasing : State := midway cfg0 .issuing 0x000123450000000A 2 [.ok []]

theorem witness_DecodeOfEncode :
    (Instr.frameBlockErase4k 0xFFF000).wellFormed = true ∧ (Instr.frameBlockErase32k 0xFF8000).wellFormed = true ∧
    (Instr.frameBlockErase64k 0xFF0000).wellFormed = true ∧ (Instr.frameArrayRead 0xFFFFFF 65535).wellFormed = true ∧
    (Instr.writeByte ⟨0xFF, 0xFFFF, 0xFFFFFFFF⟩).wellFormed = true := by decide

theorem witness_EncodeOfDecode :
    decode (.request 0xFFFFFFFFFFFFFF10) = .ok (.readUniqueId ⟨0xFF, 0xFFFF, 0xFFFFFFFF⟩) ∧
    decode (.frame ⟨.sendRead, [0x03, 0xFF, 0xFF, 0xFF], 0, true⟩) = .ok (.frameArrayReadLowFreq 0xFFFFFF 0) := by decide

/-- A mnemonic that is none of the sixteen: R86 says that the assembler has no pseudo-instruction. -/
theorem witness_AssemblerChecksOperands :
    ∀ name ∈ ["read_status", "is_busy", "wait", "poll", "enable_write", "read_byte", "read_bytes", "write_byte", "chip_erase",
      "erase_4k_block", "erase_32k_block", "erase_64k_block", "sleep", "wakeup", "read_device_id", "read_unique_id"],
      name.toList ≠ "blocking_wait".toList := by decide

theorem witness_StepRunsThePresentedRequest :
    (presents cfg0 [0x0D, 0x0E] []).st = .idle ∧ (presents cfg0 [0x0D, 0x0E] []).resetLine.headD false = false ∧
    (presents cfg0 [0x0D, 0x0E] []).requests = 0x0D :: [0x0E] ∧ decode (.request 0x0D) = .ok (.sleep ⟨0, 0, 0⟩) := by decide

/-- A POLL_LOOP step and a FRAME step. -/
theorem witness_StepRunsTheScriptsFrame :
    (waiting.st ≠ .idle ∧ waiting.resetLine.headD false = false ∧ waiting.currentStep = some .pollLoop) ∧
    (erasing.st ≠ .idle ∧ erasing.resetLine.headD false = false ∧
      erasing.currentStep = some (.frame ⟨.send, [0x20, 0x01, 0x20, 0x00], 0, false⟩)) := by decide

theorem witness_PlacedInstructionRuns :
    (Instr.frameBlockErase64k 0x010000).wellFormed = true ∧ (Instr.sleep ⟨1, 2, 3⟩).wellFormed = true ∧
    decodeTableWord 64 0x000010000000A508 = some (.writeByte ⟨0xA5, 0, 0x1000⟩) ∧
    decodeTableWord 32 0x00230120 = none ∧ decodeTableWord 32 0x00200120 = some (.frameBlockErase4k 0x012000) ∧
    decodeTableWord 8 0xAB = some .frameWake := by decide

theorem witness_FramesDoNothingWhileIdle :
    (presents cfg0 [] []).st = .idle ∧ encode .frameSleep = .frame ⟨.send, [0xB9], 0, false⟩ := by decide

/-- The four boundary OP values, and an active request. -/
theorem witness_AcceptLatchesTheRequest :
    ((presents cfg0 [0x00] []).st = .idle ∧ (presents cfg0 [0x00] []).requests = [0x00]) ∧
    ((presents cfg0 [0x01] []).st = .idle ∧ (presents cfg0 [0x01] []).requests = [0x01]) ∧
    ((presents cfg0 [0x10] []).st = .idle ∧ (presents cfg0 [0x10] []).requests = [0x10]) ∧
    ((presents cfg0 [0x11] []).st = .idle ∧ (presents cfg0 [0x11] []).requests = [0x11]) ∧
    (erasing.active ∧ ∃ t, step erasing = .next t) :=
  ⟨by decide, by decide, by decide, by decide, by unfold State.active; decide, _, rfl⟩

theorem witness_EachRequestIsAccepted :
    (presents cfgLong [] []).st = .idle ∧ encode (.wait ⟨0, 0, 0⟩) = .request 0x03 ∧
    encode (.chipErase ⟨0, 0, 0⟩) = .request 0x09 ∧ encode (.readUniqueId ⟨0, 0, 0⟩) = .request 0x10 := by decide

theorem witness_RequestIsHeldWhileAnotherIsActive :
    waiting.st ≠ .idle ∧ encode (.sleep ⟨0, 0, 0⟩) = .request 0x0D ∧ waiting.req ≠ Request.ofWord 0x0D := by decide

theorem witness_ReservedOpIsAnIllegalRequest :
    ((presents cfg0 [0x100] []).st = .idle ∧ (presents cfg0 [0x100] []).resetLine.headD false = false ∧
      (presents cfg0 [0x100] []).requests = 0x100 :: [] ∧ (0x100 : ReqWord).extractLsb' 0 8 = 0x00) ∧
    ((presents cfg0 [0x11] []).requests = 0x11 :: [] ∧ 0x11 ≤ ((0x11 : ReqWord).extractLsb' 0 8).toNat) ∧
    ((presents cfg0 [0xFF] []).requests = 0xFF :: [] ∧ 0x11 ≤ ((0xFF : ReqWord).extractLsb' 0 8).toNat) := by decide

theorem witness_EachRequestTakesItsStep :
    encode (.erase4kBlock ⟨0, 0, 0x12345⟩) = .request 0x000123450000000A ∧ erasing.active ∧
    erasing.req = Request.ofWord 0x000123450000000A ∧ ∃ p, planOf erasing.cfg (.erase4kBlock ⟨0, 0, 0x12345⟩) = some p ∧
    p.script[erasing.sp.toNat]? = some (.frame ⟨.send, [0x20, 0x01, 0x20, 0x00], 0, false⟩) :=
  ⟨by decide, by unfold State.active; decide, by decide, _, rfl, rfl⟩

/-- The clause about an IDLE block with nothing presented. -/
theorem witness_EachRequestTakesItsStep_idle :
    (presents cfg0 [] []).st = .idle ∧ (presents cfg0 [] []).resetLine.headD false = false ∧
    (presents cfg0 [] []).requests = [] := by decide

/-- A FRAME step, which the frames and STATUSREAD may be, and a POLL_LOOP step. -/
theorem witness_ChipFramesSendTheirBytes :
    (erasing.active ∧ ∃ p, requestPlan erasing.req erasing.cfg = some p ∧
      p.script[erasing.sp.toNat]? = some (.frame ⟨.send, [0x20, 0x01, 0x20, 0x00], 0, false⟩)) ∧
    (waiting.active ∧ ∃ p, requestPlan waiting.req waiting.cfg = some p ∧
      p.script[waiting.sp.toNat]? = some .pollLoop) :=
  ⟨⟨by unfold State.active; decide, _, rfl, rfl⟩, ⟨by unfold State.active; decide, _, rfl, rfl⟩⟩

theorem witness_SendReadDeliversExactlyN :
    waiting.answers = .ok [0x01] :: [.ok [0xFF], .ok [0xFE]] ∧ [(0x01 : Byte)].length = 1 ∧
    erasing.answers = .ok [] :: [] ∧ ([] : List Byte).length = 0 := by decide

theorem witness_TransportFaultEndsTheRequest :
    let s := midway cfg0 .issuing 0x000123450000000A 2 [.fault e7]
    s.st ≠ .idle ∧ s.resetLine.headD false = false ∧
    s.currentStep = some (.frame ⟨.send, [0x20, 0x01, 0x20, 0x00], 0, false⟩) ∧ s.nextAnswer 0 = .fault e7 := by decide

/-- One state for each case: IDLE with and without a word, a frame that keeps, one that does not, a fault, a poll. -/
theorem witness_RxHoldsOnlyKeptBytes :
    (∃ t, step (presents cfg0 [] []) = .next t) ∧ (∃ t, step (presents cfg0 [0x0D] []) = .next t) ∧
    (∃ t, step (midway cfg0 .issuing 0x01 0 [.ok [0xFF]]) = .next t) ∧ (∃ t, step erasing = .next t) ∧
    (∃ t, step (midway cfg0 .issuing 0x01 0 [.fault e7]) = .next t) ∧ (∃ t, step waiting = .next t) ∧
    ∃ p, planOf cfgLong (.readBytes ⟨0, 4, 0⟩) = some p :=
  ⟨⟨_, rfl⟩, ⟨_, rfl⟩, ⟨_, rfl⟩, ⟨_, rfl⟩, ⟨_, rfl⟩, ⟨_, rfl⟩, _, rfl⟩

theorem witness_ScriptsHaveOneToSixSteps :
    encode (.wait ⟨0, 0, 0⟩) = .request 0x03 ∧ encode (.erase64kBlock ⟨0, 0, 0x1FFFF⟩) = .request 0x0001FFFF0000000C := by
  decide

theorem witness_GatedScriptsBeginWithWriteEnable :
    ∃ (f : Operands) (i j : Instr), i = .enableWrite f ∧ j = .erase64kBlock f := ⟨⟨0, 0, 0⟩, _, _, rfl, rfl⟩

theorem witness_OnlyTableFramesGoOut : ∃ t, step erasing = .next t := ⟨_, rfl⟩

/-- The hypotheses of `runsScript`: the word has this OP, and answers drive the script to its end, or to a step that then
faults. -/
def runWitness (cfg : Config) (op : BitVec 8) (w : ReqWord) (σ : List ScriptStep) (full part : List Answer) : Prop :=
  w.extractLsb' 0 8 = op ∧ (presents cfg [w] full).st = .idle ∧ (presents cfg [w] full).resetLine = [] ∧
  (presents cfg [w] full).requests = w :: [] ∧ (presents cfg [w] full).answers = full ++ [] ∧
  (presents cfg [w] (part ++ [.fault e7])).answers = part ++ .fault e7 :: [] ∧
  (progress σ [] full).map (·.step) = some σ.length ∧
  ((progress σ [] part).bind fun pg => σ[pg.step]?).isSome = true

theorem witness_StatusRequestsRun :
    runWitness cfg0 0x01 0x01 planReadStatus.script [.ok [0xA5]] [] ∧
    runWitness cfg0 0x02 0x02 planIsBusy.script [.ok [0x03]] [] ∧
    runWitness cfg0 0x04 0x04 planPoll.script [.ok [0x02]] [] := by unfold runWitness; decide

theorem witness_WaitAndEnableWriteRun :
    runWitness cfg0 0x03 0x03 [.pollLoop] [.ok [0x01], .ok [0x01], .ok [0x00]] [.ok [0x01], .ok [0x01]] ∧
    runWitness cfg0 0x05 0x05 (weRow cfg0) [.ok [], .ok [0x01], .ok [0x00]] [.ok [], .ok [0x01]] := by unfold runWitness; decide

theorem witness_ArrayReadsRun :
    runWitness cfg0 0x06 0xFF12345600000006 [.frame (.arrayRead 0x123456 1)] [.ok [0x77]] [] ∧
    runWitness cfg0 0x07 0x0000000000000007 [.frame (.arrayRead 0 0)] [.ok []] [] ∧
    runWitness cfg0 0x07 0x0000100000040007 [.frame (.arrayRead 0x1000 4)] [.ok [0xDE, 0xAD, 0xBE, 0xEF]] [] := by
  unfold runWitness; decide

theorem witness_WriteByteRuns :
    runWitness cfg0 0x08 0x000010000000A508 (planWriteByte cfg0 ⟨0xA5, 0, 0x1000⟩).script [.ok [], .ok [0x00], .ok []]
      [.ok [], .ok [0x00]] := by unfold runWitness; decide

theorem witness_ErasesRun :
    runWitness cfg0 0x09 0x09 (planChipErase cfg0).script [.ok [], .ok [0], .ok [], .ok [1], .ok [1], .ok [0]]
      [.ok [], .ok [0], .ok [], .ok [1]] ∧
    runWitness cfg0 0x0A 0x000123450000000A (planErase4kBlock cfg0 ⟨0, 0, 0x12345⟩).script
      [.ok [], .ok [1], .ok [1], .ok [0], .ok [], .ok [0]] [.ok [], .ok [0]] ∧
    runWitness cfg0 0x0B 0x00ABCDEF0000000B (planErase32kBlock cfg0 ⟨0, 0, 0xABCDEF⟩).script
      [.ok [], .ok [0], .ok [], .ok [0]] [] ∧
    runWitness cfgLong 0x0C 0x0001FFFF0000000C (planErase64kBlock cfgLong ⟨0, 0, 0x1FFFF⟩).script
      [.ok [0], .ok [], .ok [], .ok [0], .ok [], .ok [0]] [.ok [0], .ok [], .ok [], .ok [0], .ok []] := by
  unfold runWitness; decide

theorem witness_PowerRequestsRun :
    runWitness cfg0 0x0D 0x0D planSleep.script [.ok []] [] ∧ runWitness cfg0 0x0E 0x0E planWakeup.script [.ok []] [] := by
  unfold runWitness; decide

theorem witness_IdentificationRequestsRun :
    runWitness cfg0 0x0F 0x0F planReadDeviceId.script [.ok [0xEF, 0x40]] [] ∧
    runWitness cfg0 0x10 0x10 planReadUniqueId.script [.ok [0x01, 0x23, 0x45, 0x67, 0x89, 0xAB, 0xCD, 0xEF]] [] := by
  unfold runWitness; decide

/-- Both clauses, and the boundary with no busy poll. -/
theorem witness_PollLoopPollsUntilNotBusy :
    (waiting.st ≠ .idle ∧ waiting.resetLine = [] ∧ waiting.currentStep = some .pollLoop ∧
      (∀ b ∈ [(0x01 : Byte), 0xFF], b.getLsbD 0 = true) ∧ (0xFE : Byte).getLsbD 0 = false ∧
      waiting.answers = [(0x01 : Byte), 0xFF].map (fun b => .ok [b]) ++ .ok [0xFE] :: []) ∧
    (midway cfg0 .awaitingNotBusy 0x03 0 [.ok [0x00]]).answers = ([] : List Byte).map (fun b => .ok [b]) ++ .ok [0x00] :: [] := by
  decide

theorem witness_OnlyAResetEndsAHang :
    let s := { waiting with resetLine := List.replicate 2 false ++ [true] }
    s.st ≠ .idle ∧ s.resetLine = List.replicate [(0x01 : Byte), 0xFF].length false ++ [true] ∧
    s.currentStep = some .pollLoop ∧ (∀ b ∈ [(0x01 : Byte), 0xFF], b.getLsbD 0 = true) ∧
    s.answers = [(0x01 : Byte), 0xFF].map (fun b => .ok [b]) ++ [.ok [0xFE]] := by decide

/-- A not-busy answer and a fault, after one busy poll and after none. -/
theorem witness_WaitMakesThePollsOfAHostLoop :
    ((presents cfg0 [] [.ok [0x01], .ok [0x00]]).st = .idle ∧ (presents cfg0 [] [.ok [0x01], .ok [0x00]]).resetLine = [] ∧
      (∀ b ∈ [(0x01 : Byte)], b.getLsbD 0 = true) ∧ (0x00 : Byte).getLsbD 0 = false ∧
      (presents cfg0 [] [.ok [0x01], .ok [0x00]]).answers = [(0x01 : Byte)].map (fun b => .ok [b]) ++ .ok [0x00] :: []) ∧
    (presents cfg0 [] [.ok [0x01], .fault e7]).answers = [(0x01 : Byte)].map (fun b => .ok [b]) ++ .fault e7 :: [] ∧
    (presents cfg0 [] [.ok [0x00]]).answers = ([] : List Byte).map (fun b => .ok [b]) ++ .ok [0x00] :: [] ∧
    (presents cfg0 [] [.fault e7]).answers = ([] : List Byte).map (fun b => .ok [b]) ++ .fault e7 :: [] := by
  decide

theorem witness_ResetDropsTheRequest : { waiting with resetLine := [true] }.resetLine = true :: [] := rfl

theorem witness_StepKeepsInv : erasing.Inv ∧ ∃ t, step erasing = .next t :=
  ⟨⟨⟨_, rfl⟩, by decide, by decide, by intro h; cases h⟩, _, rfl⟩

/-- The last step of the longest script, where `sp` reaches 6, and a poll that stays. -/
theorem witness_StepKeepsInv_bounds :
    ((midway cfgLong .awaitingNotBusy 0x0001FFFF0000000C 5 [.ok [0x00]]).Inv ∧
      ∃ t, step (midway cfgLong .awaitingNotBusy 0x0001FFFF0000000C 5 [.ok [0x00]]) = .next t) ∧
    (waiting.Inv ∧ ∃ t, step waiting = .next t) :=
  ⟨⟨⟨rfl, by decide, by decide, by intro h; cases h⟩, _, rfl⟩, ⟨rfl, by decide, by decide, by intro h; cases h⟩, _, rfl⟩

theorem witness_RunNeverStops : erasing.Inv := witness_StepKeepsInv.1

/-- An accept, a poll, an end, and a frame in IDLE. -/
theorem witness_ExecFrame :
    (∃ t, exec (.sleep ⟨0, 0, 0⟩) (presents cfg0 [] []) = .next t) ∧
    (∃ t, exec (.wait ⟨0, 0, 0⟩) waiting = .next t) ∧
    (∃ t, exec .frameSleep (midway cfg0 .issuing 0x0D 0 [.ok []]) = .next t) ∧
    (∃ t, exec .frameSleep (presents cfg0 [] []) = .next t) :=
  ⟨⟨_, rfl⟩, ⟨_, rfl⟩, ⟨_, rfl⟩, _, rfl⟩

/-- Two read_byte words that differ in DATA, LEN and ADDR bits 31:24, and one step from each. -/
theorem witness_UnreadFieldsDoNotMatter :
    (presents cfg0 [0x0012345600000006] []).sameBehaviour (presents cfg0 [0xFF12345600050106] []) ∧
    ∃ t, run 1 (presents cfg0 [0x0012345600000006] []) = .next t :=
  ⟨⟨⟨rfl, fun _ => rfl, fun _ => rfl, fun _ => rfl⟩,
    ⟨⟨by decide, fun _ => by decide, fun h => absurd h (by decide), fun h => absurd h (by decide)⟩, trivial⟩, rfl⟩, _, rfl⟩

/-- An erase and a write_byte that run to their end. -/
theorem witness_CompletedErasesLeaveTheChipReady :
    ((progress (planErase4kBlock cfg0 ⟨0, 0, 0x12345⟩).script [] [.ok [], .ok [1], .ok [0], .ok [], .ok [0]]).map (·.step) =
      some (planErase4kBlock cfg0 ⟨0, 0, 0x12345⟩).script.length) ∧
    ((progress (planWriteByte cfg0 ⟨0xA5, 0, 0x1000⟩).script [] [.ok [], .ok [0], .ok []]).map (·.step) =
      some (planWriteByte cfg0 ⟨0xA5, 0, 0x1000⟩).script.length) := by decide

end Sys2Proof.Tests
end

section
/-! SUPPORT. What a plan's script can look like, said once: one step, or WE(cfg) with at most two steps after it that keep
nothing. The bounds of R9, R25, R32 and R35 follow from it. -/

namespace Sys2Proof.Machine

/-- The step stores the bytes it receives in rx (10_state.md R35). -/
def ScriptStep.keeps : ScriptStep → Bool
  | .frame f => f.keep
  | .pollLoop => false

/-- WE(cfg) has two to four steps (40_status_wait.md R110). -/
theorem writeEnableSeq_length (cfg : Config) :
    2 ≤ (writeEnableSeq cfg).length ∧ (writeEnableSeq cfg).length ≤ 4 := by
  obtain ⟨_, weSeq, _, prePoll⟩ := cfg
  cases weSeq <;> cases prePoll <;> simp [writeEnableSeq, writeEnableFrames]

/-- A step that stores nothing in rx and receives at most the one byte of a poll. -/
def ScriptStep.Quiet (c : ScriptStep) : Prop :=
  c.keeps = false ∧ c.sent.n ≤ 1

theorem quiet_pollLoop : ScriptStep.pollLoop.Quiet := ⟨rfl, le_rfl⟩

/-- A `send` is a quiet step. -/
theorem quiet_frame {f : Frame} (hkeep : f.keep = false) (hn : f.n = 0) : (ScriptStep.frame f).Quiet :=
  ⟨hkeep, (le_of_eq hn).trans zero_le_one⟩

theorem quiet_of_mem_writeEnableFrames {cfg : Config} {c : ScriptStep} (h : c ∈ writeEnableFrames cfg) : c.Quiet := by
  have hframe : c = .frame .writeEnable ∨ c = .frame (.statusWrite cfg.wrsrValue) := by
    unfold writeEnableFrames at h
    split at h <;> simp at h <;> tauto
  rcases hframe with rfl | rfl <;> exact quiet_frame rfl rfl

theorem quiet_of_mem_writeEnableSeq {cfg : Config} {c : ScriptStep} (h : c ∈ writeEnableSeq cfg) : c.Quiet := by
  simp only [writeEnableSeq, List.mem_append, List.mem_singleton] at h
  rcases h with (h | h) | rfl
  · split at h
    · rw [List.mem_singleton.mp h]; exact quiet_pollLoop
    · cases h
  · exact quiet_of_mem_writeEnableFrames h
  · exact quiet_pollLoop

/-- The script of an ungated request: one step, receiving no more than LEN can ask for (00_scope.md R9). -/
def IsUngated (script : List ScriptStep) : Prop :=
  ∃ c, script = [c] ∧ c.sent.n ≤ Config.maxBytes

/-- The script of a gated request: WE(cfg), then at most two quiet steps (40_status_wait.md R109, R110). -/
def IsGated (cfg : Config) (script : List ScriptStep) : Prop :=
  ∃ rest, script = writeEnableSeq cfg ++ rest ∧ rest.length ≤ 2 ∧ ∀ c ∈ rest, c.Quiet

theorem isGated_writeEnableSeq (cfg : Config) : IsGated cfg (writeEnableSeq cfg) :=
  ⟨[], (List.append_nil _).symm, by simp, by simp⟩

theorem isGated_program (cfg : Config) (a : Addr24) (d : Byte) :
    IsGated cfg (writeEnableSeq cfg ++ [.frame (.bytePageProgram a d)]) :=
  ⟨_, rfl, by simp, by simpa using quiet_frame rfl rfl⟩

theorem isGated_erase (cfg : Config) {f : Frame} (hkeep : f.keep = false) (hn : f.n = 0) :
    IsGated cfg (erasePlan cfg f).script :=
  ⟨_, rfl, by simp, by simpa using ⟨quiet_frame hkeep hn, quiet_pollLoop⟩⟩

theorem isUngated_readFrame (cfg : Config) (a : Addr24) {n : Nat} (hn : n ≤ Config.maxBytes) :
    IsUngated [.frame (readFrame cfg a n)] := by
  refine ⟨_, rfl, ?_⟩
  unfold readFrame
  split <;> exact hn

theorem len_le_maxBytes (len : BitVec 16) : len.toNat ≤ Config.maxBytes :=
  Nat.le_of_lt_succ len.isLt

/-- The dispatcher's scripts are of these two shapes (10_state.md R25, 30_encoding.md R82). -/
theorem planOf_script {cfg : Config} {i : Instr} {p : Plan} (h : planOf cfg i = some p) :
    IsUngated p.script ∨ IsGated cfg p.script := by
  cases i with
  | readStatus f | isBusy f | wait f | poll f | sleep f | wakeup f | readDeviceId f | readUniqueId f =>
    cases h; exact .inl ⟨_, rfl, by decide⟩
  | readByte f => cases h; exact .inl (isUngated_readFrame _ _ (by decide))
  | readBytes f => cases h; exact .inl (isUngated_readFrame _ _ (len_le_maxBytes f.len))
  | enableWrite f => cases h; exact .inr (isGated_writeEnableSeq cfg)
  | writeByte f => cases h; exact .inr (isGated_program cfg _ _)
  | chipErase f | erase4kBlock f | erase32kBlock f | erase64kBlock f => cases h; exact .inr (isGated_erase cfg rfl rfl)
  | _ => cases h

/-- R9, SEQ_STEPS_MAX: a script has one to six steps. -/
theorem planOf_script_length {cfg : Config} {i : Instr} {p : Plan} (h : planOf cfg i = some p) :
    1 ≤ p.script.length ∧ p.script.length ≤ 6 := by
  rcases planOf_script h with ⟨c, hs, -⟩ | ⟨rest, hs, hrest, -⟩ <;> rw [hs]
  · exact ⟨by simp, by simp⟩
  · have := writeEnableSeq_length cfg
    rw [List.length_append]; omega

/-- A gated script is quiet throughout. -/
theorem IsGated.quiet {cfg : Config} {script : List ScriptStep} (h : IsGated cfg script) : ∀ c ∈ script, c.Quiet := by
  obtain ⟨rest, rfl, -, hquiet⟩ := h
  exact fun c hc => (List.mem_append.mp hc).elim quiet_of_mem_writeEnableSeq (hquiet c)

/-- No step of a script receives more than 65535 bytes (10_state.md R32). -/
theorem planOf_receives_le {cfg : Config} {i : Instr} {p : Plan} (h : planOf cfg i = some p) :
    ∀ c ∈ p.script, c.sent.n ≤ Config.maxBytes := by
  rcases planOf_script h with ⟨c, hs, hn⟩ | hgated
  · rw [hs]; simpa using hn
  · exact fun c hc => (hgated.quiet c hc).2.trans (by decide)

/-- R35: at most one step of a script keeps its bytes. -/
theorem planOf_keeps_length_le_one {cfg : Config} {i : Instr} {p : Plan} (h : planOf cfg i = some p) :
    (p.script.filter ScriptStep.keeps).length ≤ 1 := by
  rcases planOf_script h with ⟨c, hs, -⟩ | hgated
  · rw [hs]; exact List.length_filter_le _ _
  · have hnone : p.script.filter ScriptStep.keeps = [] :=
      List.filter_eq_nil_iff.mpr fun c hc => by simp [(hgated.quiet c hc).1]
    simp [hnone]

/-- An OK response holds no more bytes than were kept, or one (41_array_read.md R121, R122). -/
theorem planOf_data_length_le {cfg : Config} {i : Instr} {p : Plan} (h : planOf cfg i = some p) {rx : List Byte}
    (hrx : rx.length ≤ Config.maxBytes) : (p.data rx).length ≤ Config.maxBytes := by
  cases i with
  | readBytes f | readDeviceId f | readUniqueId f => cases h; exact hrx
  | readByte f => cases h; exact (by decide : 1 ≤ Config.maxBytes)
  | readStatus f | isBusy f | wait f | poll f | enableWrite f | writeByte f | chipErase f | erase4kBlock f
  | erase32kBlock f | erase64kBlock f | sleep f | wakeup f => cases h; exact Nat.zero_le _
  | _ => cases h

/-- The plan of a latched request is the dispatcher's plan of an instruction. -/
theorem planOf_of_requestPlan {r : Request} {cfg : Config} {p : Plan} (h : requestPlan r cfg = some p) :
    ∃ i, planOf cfg i = some p := by
  unfold requestPlan at h
  split at h
  · exact ⟨_, h⟩
  · cases h

/-- A request word is the encoding of a request. -/
theorem isRequest_of_encode {i : Instr} {w : ReqWord} (h : encode i = .request w) : i.isRequest = true := by
  cases i <;> simp [encode] at h <;> rfl

/-- The dispatcher has a plan for exactly the requests (30_encoding.md R82). -/
theorem planOf_isSome (cfg : Config) (i : Instr) : (planOf cfg i).isSome = i.isRequest := by
  cases i <;> rfl

/-- Settles O19, from the two shapes a script can have. -/
theorem scriptsHaveOneToSixSteps : Obligations.ScriptsHaveOneToSixSteps := by
  intro cfg i w hw
  obtain ⟨p, hp⟩ := Option.isSome_iff_exists.mp ((planOf_isSome cfg i).trans (isRequest_of_encode hw))
  exact ⟨p, hp, planOf_script_length hp⟩

end Sys2Proof.Machine
end

section
/-! SUPPORT. The machine's invariant (10_state.md R24, R26, R27, R32): it holds at reset, every step keeps it, and where it
holds there is a step to take. -/

namespace Sys2Proof.Machine

/-! ### The parts of the invariant -/

theorem sequencerOk_of_idle {s : State} (h : s.st = .idle) : s.sequencerOk := by
  simp [State.sequencerOk, h]

theorem currentStep_of_plan {s : State} {p : Plan} (h : requestPlan s.req s.cfg = some p) :
    s.currentStep = p.script[s.sp.toNat]? := by
  simp [State.currentStep, h]

/-- R24: an `st` read off the script at `sp` is the right one, as long as `sp` is inside the script. -/
theorem sequencerOk_of_seqStateAt {s : State} {p : Plan} (hp : requestPlan s.req s.cfg = some p)
    (hlt : s.sp.toNat < p.script.length) (hst : s.st = seqStateAt p.script s.sp.toNat) : s.sequencerOk := by
  have hc := List.getElem?_eq_getElem hlt
  cases hstep : p.script[s.sp.toNat] with
  | frame f =>
    rw [hstep] at hc
    rw [seqStateAt_of_frame hc] at hst
    simp [State.sequencerOk, hst, currentStep_of_plan hp, hc]
  | pollLoop =>
    rw [hstep] at hc
    rw [seqStateAt_of_pollLoop hc] at hst
    simp [State.sequencerOk, hst, currentStep_of_plan hp, hc]

/-- `sequencerOk` reads nothing but `st`, `req`, `sp` and the configuration. -/
theorem sequencerOk_congr {s t : State} (hst : t.st = s.st) (hreq : t.req = s.req) (hsp : t.sp = s.sp)
    (hcfg : t.cfg = s.cfg) (h : s.sequencerOk) : t.sequencerOk := by
  simpa only [State.sequencerOk, State.currentStep, hst, hreq, hsp, hcfg] using h

/-- While a request is active, the invariant gives the script a current step. -/
theorem exists_currentStep {s : State} (h : s.sequencerOk) (hactive : s.active) : ∃ c, s.currentStep = some c := by
  unfold State.sequencerOk at h
  split at h
  · contradiction
  · exact ⟨_, h⟩
  · obtain ⟨f, hf⟩ := h; exact ⟨_, hf⟩

/-- R27, R170: every reply whose data fits writes an admissible response. -/
theorem response_ok (d : Nat) {r : Reply} (h : ∀ v bs, r = .ok v bs → bs.length ≤ Config.maxBytes) :
    (r.response d).ok := by
  intro _
  cases r with
  | ok v bs => exact ⟨(by decide : rcOk ≠ rcReserved), fun hrc => absurd rfl hrc, h v bs rfl⟩
  | transportFault e k => exact ⟨(by decide : rcTransportFault ≠ rcReserved), fun _ => ⟨rfl, rfl⟩, Nat.zero_le _⟩
  | illegalRequest => exact ⟨(by decide : rcIllegalRequest ≠ rcReserved), fun _ => ⟨rfl, rfl⟩, Nat.zero_le _⟩

/-! ### The operations keep it -/

theorem inv_endRequest {s : State} {r : Reply} (hsp : s.sp.toNat ≤ Config.seqStepsMax)
    (hrx : s.rx.length ≤ Config.maxBytes) (hr : ∀ v bs, r = .ok v bs → bs.length ≤ Config.maxBytes) :
    (endRequest r s).Inv :=
  ⟨sequencerOk_of_idle rfl, hsp, hrx, response_ok _ hr⟩

theorem inv_blockReset (s : State) : (blockReset s).Inv :=
  ⟨sequencerOk_of_idle rfl, Nat.zero_le _, Nat.zero_le _, fun h => Bool.noConfusion h⟩

theorem inv_acceptIllegal (r : Request) (s : State) : (acceptIllegal r s).Inv :=
  inv_endRequest (Nat.zero_le _) (Nat.zero_le _) (fun _ _ h => Reply.noConfusion h)

theorem inv_accept {r : Request} {p : Plan} {s : State} (hp : requestPlan r s.cfg = some p) (hresp : s.resp.ok) :
    (accept r p s).Inv := by
  obtain ⟨i, hi⟩ := planOf_of_requestPlan hp
  exact ⟨sequencerOk_of_seqStateAt hp (planOf_script_length hi).1 rfl, Nat.zero_le _, Nat.zero_le _, hresp⟩

/-- Moving on: `sp` is inside a script of at most six steps, so it does not wrap, and the new `sp` is its end or again
inside (10_state.md R26). -/
theorem inv_advanceSp {p : Plan} {s : State} (hp : requestPlan s.req s.cfg = some p)
    (hlt : s.sp.toNat < p.script.length) (hrx : s.rx.length ≤ Config.maxBytes) (hresp : s.resp.ok) :
    (advanceSp p s).Inv := by
  obtain ⟨i, hi⟩ := planOf_of_requestPlan hp
  have hlen : p.script.length ≤ 6 := (planOf_script_length hi).2
  have hnext : (s.sp + 1).toNat = s.sp.toNat + 1 := by
    rw [BitVec.toNat_add]; exact Nat.mod_eq_of_lt (show s.sp.toNat + 1 < 8 by omega)
  have hsp : (s.sp + 1).toNat ≤ Config.seqStepsMax := show _ ≤ 6 by omega
  rcases advanceSp_cases p s with ⟨_, he⟩ | ⟨hne, he⟩ <;> rw [he]
  · refine inv_endRequest hsp hrx fun v bs h => ?_
    cases h
    exact planOf_data_length_le hi hrx
  · exact ⟨sequencerOk_of_seqStateAt hp (show (s.sp + 1).toNat < _ by omega) rfl, hsp, hrx, hresp⟩

/-- A FRAME step: its bytes are as many as it asks for, so what it keeps fits in rx (10_state.md R32, R35). -/
theorem inv_frameStep {p : Plan} {f : Frame} {s : State} (h : s.Inv) (hp : requestPlan s.req s.cfg = some p)
    (hc : p.script[s.sp.toNat]? = some (.frame f)) : (frameStep p f s).Inv := by
  obtain ⟨-, hsp, hrx, hresp⟩ := h
  obtain ⟨i, hi⟩ := planOf_of_requestPlan hp
  rcases frameStep_cases p f s with ⟨e, -, he⟩ | ⟨rx, hans, he⟩ <;> rw [he]
  · exact inv_endRequest hsp hrx fun _ _ h => Reply.noConfusion h
  · have hkept : rx.length ≤ Config.maxBytes :=
      (length_of_nextAnswer_ok hans).trans_le (planOf_receives_le hi _ (List.mem_of_getElem? hc))
    refine inv_advanceSp hp (List.getElem?_eq_some_iff.mp hc).1 ?_ hresp
    show (if f.keep then rx else s.rx).length ≤ _
    split
    · exact hkept
    · exact hrx

theorem inv_pollStep {p : Plan} {s : State} (h : s.Inv) (hp : requestPlan s.req s.cfg = some p)
    (hc : p.script[s.sp.toNat]? = some .pollLoop) : (pollStep p s).Inv := by
  obtain ⟨hseq, hsp, hrx, hresp⟩ := h
  rcases pollStep_cases p s with ⟨e, -, he⟩ | ⟨rx, -, ⟨-, he⟩ | ⟨-, he⟩⟩ <;> rw [he]
  · exact inv_endRequest hsp hrx fun _ _ h => Reply.noConfusion h
  · exact ⟨sequencerOk_congr rfl rfl rfl rfl hseq, hsp, hrx, hresp⟩
  · exact inv_advanceSp hp (List.getElem?_eq_some_iff.mp hc).1 hrx hresp

/-! ### The step -/

theorem inv_step {s t : State} (h : s.Inv) (hstep : step s = .next t) : t.Inv := by
  rcases step_cases hstep with
    ⟨-, rfl⟩ | ⟨-, -, -, rfl⟩ | ⟨-, -, w, q, e, -, -, rfl⟩ | ⟨-, -, w, q, p, -, hp, rfl⟩ |
    ⟨-, -, p, c, hp, hc, rfl⟩
  · -- a reset
    exact inv_blockReset _
  · -- IDLE, no word presented
    exact h
  · -- an illegal request
    exact inv_acceptIllegal _ _
  · -- an accept
    obtain ⟨-, -, -, hresp⟩ := h
    exact inv_accept hp hresp
  · -- one step of the active request's script
    cases c with
    | frame f => exact inv_frameStep (s := s.sampled) h hp hc
    | pollLoop => exact inv_pollStep (s := s.sampled) h hp hc

/-- Where the invariant holds, neither stuck state is met (log entry 8). -/
theorem exists_step_of_inv {s : State} (h : s.Inv) : ∃ t, step s = .next t := by
  obtain ⟨hseq, -⟩ := h
  cases hr : s.resetAsserted with
  | true => exact ⟨_, by rw [step_eq, if_pos hr]⟩
  | false =>
    by_cases hi : s.st = .idle
    · rw [step_eq, if_neg (by simp [hr]), if_pos hi]
      split
      · exact ⟨_, rfl⟩
      · split <;> exact ⟨_, rfl⟩
    · obtain ⟨c, hc⟩ := exists_currentStep hseq hi
      obtain ⟨p, hp, hpc⟩ := plan_of_currentStep hc
      exact ⟨_, step_active hr hi hp hpc⟩

/-- Settles O33. -/
theorem invAtReset : Obligations.InvAtReset :=
  ⟨sequencerOk_of_idle rfl, Nat.zero_le _, Nat.zero_le _, fun h => Bool.noConfusion h⟩

/-- Settles O34, one lemma for each thing that a step can be. -/
theorem stepKeepsInv : Obligations.StepKeepsInv :=
  fun _ _ h hstep => inv_step h hstep

/-- Settles O35, by induction on the number of steps: each is possible and keeps the invariant. -/
theorem runNeverStops : Obligations.RunNeverStops := by
  intro s h k
  induction k generalizing s with
  | zero => exact ⟨s, run_zero s, h⟩
  | succ k ih =>
    obtain ⟨u, hu⟩ := exists_step_of_inv h
    rw [run_succ_of_next k hu]
    exact ih u (inv_step h hu)

end Sys2Proof.Machine
end

section
/-! SUPPORT. Who writes rx (10_state.md R35), and the frame of every instruction. -/

namespace Sys2Proof.Machine

/-! ### rx -/

@[simp] theorem pollStep_rx (p : Plan) (s : State) : (pollStep p s).rx = s.rx := by
  rcases pollStep_cases p s with ⟨e, -, he⟩ | ⟨rx, -, ⟨-, he⟩ | ⟨-, he⟩⟩ <;> simp [he, raiseTransportFault]

theorem frameStep_rx_of_ok {p : Plan} {f : Frame} {s : State} {rx : List Byte} (h : s.nextAnswer f.n = .ok rx) :
    (frameStep p f s).rx = if f.keep then rx else s.rx := by
  rcases frameStep_cases p f s with ⟨e, h', -⟩ | ⟨rx', h', he⟩ <;> cases h.symm.trans h'
  rw [he, advanceSp_rx]

theorem frameStep_rx_of_fault {p : Plan} {f : Frame} {s : State} {e : TFault} (h : s.nextAnswer f.n = .fault e) :
    (frameStep p f s).rx = s.rx := by
  rcases frameStep_cases p f s with ⟨e', -, he⟩ | ⟨rx, h', -⟩
  · rw [he]; rfl
  · cases h.symm.trans h'

/-- Settles O18, along the cases of a step; that no script keeps twice is `planOf_keeps_length_le_one`. -/
theorem rxHoldsOnlyKeptBytes : Obligations.RxHoldsOnlyKeptBytes := by
  refine ⟨fun s t hquiet hstep => ?_, fun cfg i p hp => planOf_keeps_length_le_one hp⟩
  rcases step_cases hstep with
    ⟨hr, -⟩ | ⟨-, hi, hq, rfl⟩ | ⟨-, hi, w, q, e, hq, -, rfl⟩ | ⟨-, hi, w, q, p, hq, -, rfl⟩ |
    ⟨-, hi, p, c, hp, hc, rfl⟩
  · -- a reset
    cases hquiet.symm.trans hr
  · -- IDLE, no word presented
    simp only [hi, hq]; rfl
  · -- an illegal request
    simp only [hi, hq]; rfl
  · -- an accept
    simp only [hi, hq]; rfl
  · -- one step of the active request's script
    have hcur : s.currentStep = some c := (currentStep_of_plan hp).trans hc
    split
    · contradiction
    · contradiction
    · cases c with
      | pollLoop => simp only [hcur]; exact pollStep_rx p s.sampled
      | frame f =>
        simp only [hcur]
        split
        next rx hans => exact frameStep_rx_of_ok (s := s.sampled) hans
        next e hans => exact frameStep_rx_of_fault (s := s.sampled) hans

/-! ### The frame of every instruction -/

/-- A chip frame's meaning: nothing in IDLE, a FRAME step of an active request otherwise (log entry 13). -/
theorem runFrame_next {f : Frame} {s t : State} (h : runFrame f s = .next t) :
    t = s ∨ (s.active ∧ ∃ p c, t = ScriptStep.effect p s c) := by
  unfold runFrame at h
  split at h
  · cases h; exact .inl rfl
  · split at h
    · cases h
    · split at h <;> cases h
      exact .inr ⟨by assumption, _, .frame f, rfl⟩

theorem runStatusRead_next {s t : State} (h : runStatusRead s = .next t) :
    t = s ∨ (s.active ∧ ∃ p c, t = ScriptStep.effect p s c) := by
  unfold runStatusRead at h
  split at h
  · cases h; exact .inl rfl
  · split at h
    · cases h
    · split at h <;> cases h
      · exact .inr ⟨by assumption, _, .pollLoop, rfl⟩
      · exact .inr ⟨by assumption, _, .frame .statusRead, rfl⟩

/-- A request's meaning: the accept, one step of its script, or nothing while another is active (log entry 20). -/
theorem runRequest_next {r : Request} {p : Plan} {s t : State} (h : runRequest r p s = .next t) :
    t = s ∨ (s.st = .idle ∧ t = accept r p s) ∨ (s.active ∧ ∃ c, t = ScriptStep.effect p s c) := by
  by_cases hi : s.st = .idle
  · rw [runRequest_idle hi] at h; cases h; exact .inr (.inl ⟨hi, rfl⟩)
  by_cases hr : s.req = r
  · rw [runRequest_active hi hr] at h
    obtain ⟨f, -, he⟩ | ⟨-, he⟩ := takeStep_next h
    · exact .inr (.inr ⟨hi, .frame f, he⟩)
    · exact .inr (.inr ⟨hi, .pollLoop, he⟩)
  · rw [runRequest_held hi hr] at h; cases h; exact .inl rfl

/-- Every instruction runs as a request, as a chip frame or as a status read. -/
theorem exec_kinds (i : Instr) (s : State) :
    (i.isRequest = true ∧ ∃ r p, exec i s = runRequest r p s) ∨
    (∃ f, exec i s = runFrame f s) ∨ exec i s = runStatusRead s := by
  cases i with
  | readStatus f | isBusy f | wait f | poll f | enableWrite f | readByte f | readBytes f | writeByte f | chipErase f
  | erase4kBlock f | erase32kBlock f | erase64kBlock f | sleep f | wakeup f | readDeviceId f | readUniqueId f =>
    exact .inl ⟨rfl, _, _, rfl⟩
  | frameStatusRead => exact .inr (.inr rfl)
  | _ => exact .inr (.inl ⟨_, rfl⟩)

/-- Everything an instruction that answers a next state can have done: nothing; an accept, if it is a request and the block
is IDLE; one step of a script, if a request is active. -/
theorem exec_cases {i : Instr} {s t : State} (h : exec i s = .next t) :
    t = s ∨ (s.st = .idle ∧ i.isRequest = true ∧ ∃ r p, t = accept r p s) ∨
    (s.active ∧ ∃ p c, t = ScriptStep.effect p s c) := by
  rcases exec_kinds i s with ⟨hreq, r, p, he⟩ | ⟨f, he⟩ | he <;> rw [he] at h
  · rcases runRequest_next h with h | ⟨hi, h⟩ | ⟨ha, c, h⟩
    · exact .inl h
    · exact .inr (.inl ⟨hi, hreq, r, p, h⟩)
    · exact .inr (.inr ⟨ha, p, c, h⟩)
  · exact (runFrame_next h).imp_right .inr
  · exact (runStatusRead_next h).imp_right .inr

/-- What one transaction `x` may do to `sp`, rx, the response and the observation (40_status_wait.md R101, R102). -/
structure TransactionFrame (s t : State) (x : Transaction) : Prop where
  sp : t.sp = s.sp ∨ t.sp = s.sp + 1
  rx : t.rx = s.rx ∨ x.answer = .ok t.rx
  ends : (t.trace = s.trace ++ [.transaction x] ∧ t.resp = s.resp) ∨
    (t.st = .idle ∧ ∃ r, t.trace = s.trace ++ [.transaction x, .reply r])

theorem transactionFrame_of_movedOn {s t : State} {p : Plan} {x : Transaction} (h : s.movedOn t p x)
    (hrx : t.rx = s.rx ∨ x.answer = .ok t.rx) : TransactionFrame s t x := by
  obtain ⟨hsp, h⟩ := h
  split at h
  · obtain ⟨⟨hst, -⟩, htr⟩ := h
    exact ⟨.inr hsp, hrx, .inr ⟨hst, _, htr⟩⟩
  · obtain ⟨hresp, htr, -⟩ := h
    exact ⟨.inr hsp, hrx, .inl ⟨htr, hresp⟩⟩

/-- A step of a script makes one transaction. -/
theorem transactionFrame_of_stepEffect {s t : State} {p : Plan} {c : ScriptStep} (h : s.stepEffect t p c) :
    ∃ x, TransactionFrame s t x := by
  obtain ⟨-, h⟩ := h
  split at h
  next e _ =>
    obtain ⟨⟨hst, -⟩, hsp, hrx, htr⟩ := h
    exact ⟨_, .inl hsp, .inl hrx, .inr ⟨hst, _, htr⟩⟩
  next rx _ =>
    cases c with
    | frame f =>
      obtain ⟨hrx, hmoved⟩ := h
      refine ⟨_, transactionFrame_of_movedOn hmoved ?_⟩
      cases hk : f.keep <;> simp [hk] at hrx
      · exact .inl hrx
      · exact .inr (by rw [hrx]; rfl)
    | pollLoop =>
      obtain ⟨hrx, h⟩ := h
      split at h
      · obtain ⟨hsp, -, hresp, htr⟩ := h
        exact ⟨_, .inl hsp, .inl hrx, .inl ⟨htr, hresp⟩⟩
      · exact ⟨_, transactionFrame_of_movedOn h (.inl hrx)⟩

/-- Settles O36, along the three things that an instruction can do. -/
theorem execFrame : Obligations.ExecFrame := by
  intro i s t h
  rcases exec_cases h with rfl | ⟨hi, hreq, r, p, rfl⟩ | ⟨ha, p, c, rfl⟩
  · -- no change
    exact ⟨rfl, rfl, rfl, fun _ => rfl, [], by simp [transactionsOf, repliesOf]⟩
  · -- an accept
    have hnot : ¬ (s.active ∨ i.isRequest = false) := by simp [State.active, hi, hreq]
    exact ⟨rfl, rfl, rfl, fun h => absurd h hnot, [], by simp [transactionsOf, repliesOf, hnot]⟩
  · -- one step of a script
    have heffect := stepEffect_effect s p c
    obtain ⟨x, hsp, hrx, hends⟩ := transactionFrame_of_stepEffect heffect
    obtain ⟨⟨hreq, hcfg, hrequests, hline, hanswers⟩, -⟩ := heffect
    refine ⟨hcfg, hrequests, hline, fun _ => hreq, ?_⟩
    rcases hends with ⟨htr, hresp⟩ | ⟨hst, r, htr⟩
    · exact ⟨_, htr, by simpa [transactionsOf, repliesOf, ha, hanswers, hrx, hresp] using hsp⟩
    · exact ⟨_, htr, by simpa [transactionsOf, repliesOf, ha, hanswers, hrx, hst] using hsp⟩

end Sys2Proof.Machine
end

section
/-! SUPPORT. What the transport delivers (20_memory.md R46), and what a request that waits for the active one does to the
block (R50): nothing, and no step reads it. -/

namespace Sys2Proof.Machine

/-! ### The transport -/

/-- Settles O16, along the two things that an answer can be. -/
theorem sendReadDeliversExactlyN : Obligations.SendReadDeliversExactlyN := by
  refine fun s n => ⟨?_, ?_⟩
  · cases h : s.nextAnswer n with
    | ok rx => exact .inl ⟨rx, rfl, length_of_nextAnswer_ok h⟩
    | fault e => exact .inr ⟨e, rfl⟩
  · rintro rx rest hlisted rfl
    exact nextAnswer_listed_ok hlisted

/-! ### The meaning of a held request -/

/-- A request's word decodes to that request (30_encoding.md R74). -/
theorem decodeRequest_of_encode {i : Instr} {w : ReqWord} (h : encode i = .request w) : decodeRequest w = .ok i := by
  cases i with
  | readStatus f | isBusy f | wait f | poll f | enableWrite f | readByte f | readBytes f | writeByte f | chipErase f
  | erase4kBlock f | erase32kBlock f | erase64kBlock f | sleep f | wakeup f | readDeviceId f | readUniqueId f =>
    cases h
    rw [decodeRequest_toWord]; rfl
  | _ => cases h

theorem exec_held {s : State} {i : Instr} {w : ReqWord} (ha : s.active) (hw : encode i = .request w)
    (hreq : s.req ≠ Request.ofWord w) : exec i s = .next s := by
  obtain ⟨p, -, -, he⟩ := exec_of_request (decodeRequest_of_encode hw) s
  rw [he, runRequest_held ha hreq]

/-! ### A FRAME step and a poll, an equation for each answer -/

theorem frameStep_of_fault {p : Plan} {f : Frame} {s : State} {e : TFault} (h : s.nextAnswer f.n = .fault e) :
    frameStep p f s = raiseTransportFault e (s.transacted f.kind f.tx f.n) := by
  simp only [frameStep, h]

theorem frameStep_of_ok {p : Plan} {f : Frame} {s : State} {rx : List Byte} (h : s.nextAnswer f.n = .ok rx) :
    frameStep p f s = advanceSp p { s.transacted f.kind f.tx f.n with rx := if f.keep then rx else s.rx } := by
  rcases frameStep_cases p f s with ⟨e, h', -⟩ | ⟨rx', h', he⟩ <;> cases h.symm.trans h'
  exact he

theorem pollStep_of_fault {p : Plan} {s : State} {e : TFault} (h : s.nextAnswer 1 = .fault e) :
    pollStep p s = raiseTransportFault e (s.transacted .sendRead [0x05] 1) := by
  rcases pollStep_cases p s with ⟨e', h', he⟩ | ⟨rx, h', -⟩ <;> cases h.symm.trans h'
  exact he

theorem pollStep_of_busy {p : Plan} {s : State} {rx : List Byte} (h : s.nextAnswer 1 = .ok rx)
    (hb : busy (firstByte rx) = true) : pollStep p s = s.transacted .sendRead [0x05] 1 := by
  rcases pollStep_cases p s with ⟨e, h', -⟩ | ⟨rx', h', ⟨hb', he⟩ | ⟨hb', -⟩⟩ <;> cases h.symm.trans h'
  · exact he
  · cases hb.symm.trans hb'

theorem pollStep_of_notBusy {p : Plan} {s : State} {rx : List Byte} (h : s.nextAnswer 1 = .ok rx)
    (hb : busy (firstByte rx) = false) : pollStep p s = advanceSp p (s.transacted .sendRead [0x05] 1) := by
  rcases pollStep_cases p s with ⟨e, h', -⟩ | ⟨rx', h', ⟨hb', -⟩ | ⟨-, he⟩⟩ <;> cases h.symm.trans h'
  · cases hb.symm.trans hb'
  · exact he

/-! ### The operations of an active request do not read the presented words -/

section
variable (p : Plan) (s : State) (q : List ReqWord)

theorem advanceSp_withRequests :
    advanceSp p { s with requests := q } = { advanceSp p s with requests := q } := by
  rcases advanceSp_cases p s with ⟨hend, he⟩ | ⟨hend, he⟩ <;> rw [he]
  · exact if_pos hend
  · exact if_neg hend

theorem frameStep_withRequests (f : Frame) :
    frameStep p f { s with requests := q } = { frameStep p f s with requests := q } := by
  cases h : s.nextAnswer f.n with
  | fault e => rw [frameStep_of_fault h, frameStep_of_fault (s := { s with requests := q }) h]; rfl
  | ok rx =>
    rw [frameStep_of_ok h, frameStep_of_ok (s := { s with requests := q }) h]
    exact advanceSp_withRequests p { s.transacted f.kind f.tx f.n with rx := if f.keep then rx else s.rx } q

theorem pollStep_withRequests :
    pollStep p { s with requests := q } = { pollStep p s with requests := q } := by
  cases h : s.nextAnswer 1 with
  | fault e => rw [pollStep_of_fault h, pollStep_of_fault (s := { s with requests := q }) h]; rfl
  | ok rx =>
    cases hb : busy (firstByte rx) with
    | true => rw [pollStep_of_busy h hb, pollStep_of_busy (s := { s with requests := q }) h hb]; rfl
    | false =>
      rw [pollStep_of_notBusy h hb, pollStep_of_notBusy (s := { s with requests := q }) h hb]
      exact advanceSp_withRequests p (s.transacted .sendRead [0x05] 1) q

theorem effect_withRequests (c : ScriptStep) :
    c.effect p { s with requests := q } = { c.effect p s with requests := q } := by
  cases c with
  | frame f => exact frameStep_withRequests p s q f
  | pollLoop => exact pollStep_withRequests p s q

end

theorem effect_requests (p : Plan) (s : State) (c : ScriptStep) : (c.effect p s).requests = s.requests := by
  obtain ⟨⟨-, -, hrequests, -, -⟩, -⟩ := stepEffect_effect s p c
  exact hrequests

/-! ### The step of an active request, an equation for each case -/

theorem step_reset {s : State} (hr : s.resetAsserted = true) : step s = .next (blockReset s.sampled) := by
  rw [step_eq, if_pos hr]

theorem step_activeReservedOp {s : State} (hr : s.resetAsserted = false) (ha : s.active)
    (hp : requestPlan s.req s.cfg = none) : step s = .fault .activeReservedOp := by
  rw [step_eq, if_neg (by simp [hr]), if_neg ha, hp]

theorem step_noScriptStep {s : State} {p : Plan} (hr : s.resetAsserted = false) (ha : s.active)
    (hp : requestPlan s.req s.cfg = some p) (hc : p.script[s.sp.toNat]? = none) : step s = .fault .noScriptStep := by
  rw [step_eq, if_neg (by simp [hr]), if_neg ha, hp]
  simp only [hc]

/-- Settles O12: the meaning of a held request is `exec_held`; that no step reads the presented words goes along the cases of
a step while a request is active. -/
theorem requestIsHeldWhileAnotherIsActive : Obligations.RequestIsHeldWhileAnotherIsActive := by
  refine ⟨fun s i w => exec_held, fun s q ha => ?_⟩
  cases hr : s.resetAsserted with
  | true =>
    rw [step_reset hr, step_reset (s := { s with requests := q }) hr]
    exact ⟨rfl, rfl⟩
  | false =>
    cases hp : requestPlan s.req s.cfg with
    | none => rw [step_activeReservedOp hr ha hp, step_activeReservedOp (s := { s with requests := q }) hr ha hp]
    | some p =>
      cases hc : p.script[s.sp.toNat]? with
      | none => rw [step_noScriptStep hr ha hp hc, step_noScriptStep (s := { s with requests := q }) hr ha hp hc]
      | some c =>
        rw [step_active hr ha hp hc, step_active (s := { s with requests := q }) hr ha hp hc]
        exact ⟨effect_requests p s.sampled c, effect_withRequests p s.sampled q c⟩

end Sys2Proof.Machine
end

section
/-! SUPPORT. The two encodings are inverse to each other (30_encoding.md §1, §4): the encoder's words and frames decode to
what was encoded, and whatever decodes is the encoding of a well-formed instruction. -/

namespace Sys2Proof

/-! ### The acceptance checks of the frame decoder (30_encoding.md R80) -/

/-- The frame of an accepted `send` is given by its bytes. -/
theorem asSend_eq_ok {f : Frame} {opc : Byte} {i j : Instr} :
    f.asSend opc i = .ok j ↔ i = j ∧ f = { kind := .send, tx := f.tx, n := 0, keep := false } := by
  obtain ⟨kind, tx, n, keep⟩ := f
  unfold Frame.asSend
  split <;> simp_all

/-- The frame of an accepted `send_read` is given by its bytes and its receive count. -/
theorem asRead_eq_ok {f : Frame} {opc : Byte} {n : Nat} {i j : Instr} :
    f.asRead opc n i = .ok j ↔ i = j ∧ f = { kind := .sendRead, tx := f.tx, n := n, keep := true } := by
  obtain ⟨kind, tx, m, keep⟩ := f
  unfold Frame.asRead
  split <;> simp_all

/-- An accepted block erase is a `send` with an aligned address. -/
theorem asErase_eq_ok {f : Frame} {opc : Byte} {k : Nat} {a : Addr24} {i j : Instr} :
    f.asErase opc k a i = .ok j ↔
      Addr24.lowClear k a = true ∧ i = j ∧ f = { kind := .send, tx := f.tx, n := 0, keep := false } := by
  unfold Frame.asErase
  split <;> simp_all [asSend_eq_ok]

/-! ### Decoding what the encoder writes -/

theorem decodeFrame_blockErase4k {a : Addr24} (h : Addr24.lowClear 12 a = true) :
    decodeFrame (.blockErase4k a) = .ok (.frameBlockErase4k a) :=
  asErase_eq_ok.mpr (by rw [addrOfBytes_addrBytes]; exact ⟨h, rfl, rfl⟩)

theorem decodeFrame_blockErase32k {a : Addr24} (h : Addr24.lowClear 15 a = true) :
    decodeFrame (.blockErase32k a) = .ok (.frameBlockErase32k a) :=
  asErase_eq_ok.mpr (by rw [addrOfBytes_addrBytes]; exact ⟨h, rfl, rfl⟩)

theorem decodeFrame_blockErase64k {a : Addr24} (h : Addr24.lowClear 16 a = true) :
    decodeFrame (.blockErase64k a) = .ok (.frameBlockErase64k a) :=
  asErase_eq_ok.mpr (by rw [addrOfBytes_addrBytes]; exact ⟨h, rfl, rfl⟩)

theorem decodeFrame_bytePageProgram (a : Addr24) (d : Byte) :
    decodeFrame (.bytePageProgram a d) = .ok (.frameBytePageProgram a d) :=
  asSend_eq_ok.mpr (by rw [addrOfBytes_addrBytes]; exact ⟨rfl, rfl⟩)

/-- An array read of at most 65535 bytes decodes to itself (00_scope.md R9). -/
theorem decodeFrame_arrayRead (a : Addr24) {n : Nat} (h : n ≤ Config.maxBytes) :
    decodeFrame (.arrayRead a n) = .ok (.frameArrayRead a (BitVec.ofNat 16 n)) := by
  simp [decodeFrame, Frame.arrayRead, Format.cazr, addrBytes, h, asRead_eq_ok]

theorem decodeFrame_arrayReadLowFreq (a : Addr24) {n : Nat} (h : n ≤ Config.maxBytes) :
    decodeFrame (.arrayReadLowFreq a n) = .ok (.frameArrayReadLowFreq a (BitVec.ofNat 16 n)) :=
  (if_pos h).trans <| asRead_eq_ok.mpr (by rw [addrOfBytes_addrBytes]; exact ⟨rfl, rfl⟩)

/-- A well-formed chip frame decodes to itself, a row of R80 each. -/
theorem decodeFrame_of_encode {i : Instr} {f : Frame} (hwf : i.wellFormed = true) (h : encode i = .frame f) :
    decodeFrame f = .ok i := by
  cases i with
  | frameStatusRead | frameStatusWrite d | frameWriteEnable | frameChipErase | frameIdRead | frameMacRead | frameSleep
  | frameWake => cases h; rfl
  | frameBlockErase4k a => cases h; exact decodeFrame_blockErase4k hwf
  | frameBlockErase32k a => cases h; exact decodeFrame_blockErase32k hwf
  | frameBlockErase64k a => cases h; exact decodeFrame_blockErase64k hwf
  | frameBytePageProgram a d => cases h; exact decodeFrame_bytePageProgram a d
  | frameArrayRead a n =>
    cases h; rw [decodeFrame_arrayRead a (Machine.len_le_maxBytes n), BitVec.ofNat_toNat, BitVec.setWidth_eq]
  | frameArrayReadLowFreq a n =>
    cases h; rw [decodeFrame_arrayReadLowFreq a (Machine.len_le_maxBytes n), BitVec.ofNat_toNat, BitVec.setWidth_eq]
  | _ => cases h

/-- Settles O1, for each of the two encodings. -/
theorem decodeOfEncode : Obligations.DecodeOfEncode := by
  intro i hwf
  cases h : encode i with
  | request w => exact Machine.decodeRequest_of_encode h
  | frame f => exact decodeFrame_of_encode hwf h

/-! ### Encoding what the decoder reads -/

/-- A request OP that decodes is the OP of what it decodes to (30_encoding.md R74). -/
theorem encode_of_decodeOp {op : BitVec 8} {f : Operands} {i : Instr} (h : decodeOp op f = .ok i) :
    encode i = .request (f.request op).toWord ∧ i.wellFormed = true := by
  unfold decodeOp at h
  split at h <;> cases h <;> exact ⟨rfl, rfl⟩

theorem encode_of_decodeRequest {w : ReqWord} {i : Instr} (h : decodeRequest w = .ok i) :
    encode i = .request w ∧ i.wellFormed = true := by
  obtain ⟨hi, hwf⟩ := encode_of_decodeOp h
  exact ⟨hi.trans (congrArg Code.request (toWord_ofWord w)), hwf⟩

theorem toNat_ofNat_of_le_maxBytes {n : Nat} (h : n ≤ Config.maxBytes) : (BitVec.ofNat 16 n).toNat = n :=
  (BitVec.toNat_ofNat n 16).trans (Nat.mod_eq_of_lt (Nat.lt_succ_of_le h))

section
variable {f : Frame} {opc : Byte} {tx : List Byte} {i j : Instr}

/-- What an accepted `send` decodes to encodes to it, if the row's own frame has its bytes. -/
theorem encode_of_asSend (htx : f.tx = tx) (h : f.asSend opc i = .ok j)
    (hi : encode i = .frame { kind := .send, tx := tx, n := 0, keep := false }) (hwf : i.wellFormed = true) :
    encode j = .frame f ∧ j.wellFormed = true := by
  subst htx
  obtain ⟨rfl, hf⟩ := asSend_eq_ok.mp h
  exact ⟨hi.trans (congrArg Code.frame hf.symm), hwf⟩

theorem encode_of_asRead {n : Nat} (htx : f.tx = tx) (h : f.asRead opc n i = .ok j)
    (hi : encode i = .frame { kind := .sendRead, tx := tx, n := n, keep := true }) (hwf : i.wellFormed = true) :
    encode j = .frame f ∧ j.wellFormed = true := by
  subst htx
  obtain ⟨rfl, hf⟩ := asRead_eq_ok.mp h
  exact ⟨hi.trans (congrArg Code.frame hf.symm), hwf⟩

/-- An accepted block erase is well formed because its address is aligned (42_program_erase.md R137). -/
theorem encode_of_asErase {k : Nat} {a : Addr24} (htx : f.tx = tx) (h : f.asErase opc k a i = .ok j)
    (hi : encode i = .frame { kind := .send, tx := tx, n := 0, keep := false })
    (hwf : i.wellFormed = Addr24.lowClear k a) : encode j = .frame f ∧ j.wellFormed = true := by
  obtain ⟨ha, hsend⟩ := asErase_eq_ok.mp h
  exact encode_of_asSend htx (asSend_eq_ok (opc := opc).mpr hsend) hi (hwf.trans ha)

end

/-- The bytes of the formats that carry an address, from the address bytes received (30_encoding.md R79). -/
theorem format_ca_addrOfBytes (opc a2 a1 a0 : Byte) :
    Format.ca opc (addrOfBytes a2 a1 a0) = { kind := .send, tx := [opc, a2, a1, a0], n := 0, keep := false } := by
  rw [Format.ca, addrBytes_addrOfBytes]

theorem format_cad_addrOfBytes (opc a2 a1 a0 d : Byte) :
    Format.cad opc (addrOfBytes a2 a1 a0) d = { kind := .send, tx := [opc, a2, a1, a0, d], n := 0, keep := false } := by
  rw [Format.cad, addrBytes_addrOfBytes]; rfl

theorem format_car_addrOfBytes (opc a2 a1 a0 : Byte) (n : Nat) :
    Format.car opc (addrOfBytes a2 a1 a0) n = { kind := .sendRead, tx := [opc, a2, a1, a0], n := n, keep := true } := by
  rw [Format.car, addrBytes_addrOfBytes]

theorem format_cazr_addrOfBytes (opc a2 a1 a0 : Byte) (n : Nat) :
    Format.cazr opc (addrOfBytes a2 a1 a0) n =
      { kind := .sendRead, tx := [opc, a2, a1, a0, Config.dummyValue], n := n, keep := true } := by
  rw [Format.cazr, addrBytes_addrOfBytes]; rfl

/-- A frame that decodes is the frame of what it decodes to, a row of R80 each. -/
theorem encode_of_decodeFrame {f : Frame} {i : Instr} (h : decodeFrame f = .ok i) :
    encode i = .frame f ∧ i.wellFormed = true := by
  unfold decodeFrame at h
  split at h
  · cases h
  rename_i opc rest htx
  split at h
  case h_15 => cases h
  all_goals split at h <;> [skip; cases h]
  -- STATUSREAD, STATUSWRITE, WRITEENABLE
  · exact encode_of_asRead htx h rfl rfl
  · exact encode_of_asSend htx h rfl rfl
  · exact encode_of_asSend htx h rfl rfl
  -- the three BLOCKERASEs
  · exact encode_of_asErase htx h (congrArg Code.frame (format_ca_addrOfBytes ..)) rfl
  · exact encode_of_asErase htx h (congrArg Code.frame (format_ca_addrOfBytes ..)) rfl
  · exact encode_of_asErase htx h (congrArg Code.frame (format_ca_addrOfBytes ..)) rfl
  -- CHIPERASE, BYTEPAGEPROGRAM
  · exact encode_of_asSend htx h rfl rfl
  · exact encode_of_asSend htx h (congrArg Code.frame (format_cad_addrOfBytes ..)) rfl
  -- the two ARRAYREADs
  · split at h
    next => cases h
    next hz =>
      split at h
      next hn =>
        rw [not_not.mp hz] at htx
        refine encode_of_asRead htx h (congrArg Code.frame ?_) rfl
        rw [toNat_ofNat_of_le_maxBytes hn]; exact format_cazr_addrOfBytes ..
      next => cases h
  · split at h
    next hn =>
      refine encode_of_asRead htx h (congrArg Code.frame ?_) rfl
      rw [toNat_ofNat_of_le_maxBytes hn]; exact format_car_addrOfBytes ..
    next => cases h
  -- IDREAD, MACREAD, SLEEP, WAKE
  · exact encode_of_asRead htx h rfl rfl
  · exact encode_of_asRead htx h rfl rfl
  · exact encode_of_asSend htx h rfl rfl
  · exact encode_of_asSend htx h rfl rfl

/-- Settles O2, for each of the two encodings. -/
theorem encodeOfDecode : Obligations.EncodeOfDecode := by
  intro c i h
  cases c with
  | request w => exact encode_of_decodeRequest h
  | frame f => exact encode_of_decodeFrame h

end Sys2Proof
end

section
/-! SUPPORT. The block does not depend on the fields that a request does not read (30_encoding.md R73, R77): the plan of a
request reads only what `sameRead` compares, and no other operation reads `req` or the presented words. -/

namespace Sys2Proof.Machine

/-! ### What is compared -/

theorem sameRead_refl (r : Request) : sameRead r r := ⟨rfl, fun _ => rfl, fun _ => rfl, fun _ => rfl⟩

theorem sameRead_symm {r r' : Request} (h : sameRead r r') : sameRead r' r := by
  obtain ⟨hop, haddr, hlen, hdata⟩ := h
  rw [hop] at haddr hlen hdata
  exact ⟨hop.symm, fun hr => (haddr hr).symm, fun hr => (hlen hr).symm, fun hr => (hdata hr).symm⟩

/-- States of the same behaviour are one state with two latched requests and two lists of presented words. -/
theorem sameBehaviour_iff {s s' : State} :
    s.sameBehaviour s' ↔
      ∃ r q, sameRead s.req r ∧ sameReadWords s.requests q ∧ s' = { s with req := r, requests := q } := by
  constructor
  · rintro ⟨hreq, hq, hs⟩
    exact ⟨_, _, hreq, hq, hs⟩
  · rintro ⟨r, q, hreq, hq, rfl⟩
    exact ⟨hreq, hq, rfl⟩

theorem sameReadWords_nil {q : List ReqWord} (h : sameReadWords [] q) : q = [] := by
  cases q with
  | nil => rfl
  | cons w ws => exact h.elim

theorem sameReadWords_cons {w : ReqWord} {ws q : List ReqWord} (h : sameReadWords (w :: ws) q) :
    ∃ w' ws', q = w' :: ws' ∧ sameRead (Request.ofWord w) (Request.ofWord w') ∧ sameReadWords ws ws' := by
  cases q with
  | nil => exact h.elim
  | cons w' ws' => exact ⟨w', ws', rfl, h⟩

/-! ### The plan of a request (30_encoding.md R75 to R77) -/

/-- Requests that `sameRead` relates decode to instructions with one plan. -/
theorem decode_sameRead {r r' : Request} {i : Instr} (h : sameRead r r') (hi : r.decode = .ok i) (cfg : Config) :
    ∃ j, r'.decode = .ok j ∧ planOf cfg i = planOf cfg j := by
  obtain ⟨op, data, len, addr⟩ := r
  obtain ⟨op', data', len', addr'⟩ := r'
  obtain ⟨hop, haddr, hlen, hdata⟩ := h
  dsimp only at hop haddr hlen hdata
  subst hop
  have hchip : readsAddr op → chipAddr addr = chipAddr addr' := haddr
  simp only [Request.decode, decodeOp] at hi
  split at hi <;> cases hi <;> refine ⟨_, rfl, ?_⟩
  case h_6 => simp only [planOf, planReadByte, Request.operands, hchip (by simp [readsAddr])]
  case h_7 => simp only [planOf, planReadBytes, Request.operands, hchip (by simp [readsAddr]), hlen rfl]
  case h_8 => simp only [planOf, planWriteByte, Request.operands, hchip (by simp [readsAddr]), hdata rfl]
  case h_10 => simp only [planOf, planErase4kBlock, Request.operands, hchip (by simp [readsAddr])]
  case h_11 => simp only [planOf, planErase32kBlock, Request.operands, hchip (by simp [readsAddr])]
  case h_12 => simp only [planOf, planErase64kBlock, Request.operands, hchip (by simp [readsAddr])]
  all_goals rfl

/-- The plan of a request reads ADDR 23:0, LEN and DATA only where `sameRead` compares them. -/
theorem requestPlan_congr {r r' : Request} (h : sameRead r r') (cfg : Config) :
    requestPlan r cfg = requestPlan r' cfg := by
  unfold requestPlan
  cases hr : r.decode with
  | ok i =>
    obtain ⟨j, hj, hplan⟩ := decode_sameRead h hr cfg
    simp only [hj, hplan]
  | error e =>
    cases hr' : r'.decode with
    | ok j => obtain ⟨i, hi, -⟩ := decode_sameRead (sameRead_symm h) hr' cfg; cases hr.symm.trans hi
    | error e' => rfl

/-! ### The operations of an active request do not read `req` -/

section
variable (p : Plan) (s : State) (r : Request)

theorem advanceSp_withReq : advanceSp p { s with req := r } = { advanceSp p s with req := r } := by
  rcases advanceSp_cases p s with ⟨hend, he⟩ | ⟨hend, he⟩ <;> rw [he]
  · exact if_pos hend
  · exact if_neg hend

theorem frameStep_withReq (f : Frame) : frameStep p f { s with req := r } = { frameStep p f s with req := r } := by
  cases h : s.nextAnswer f.n with
  | fault e => rw [frameStep_of_fault h, frameStep_of_fault (s := { s with req := r }) h]; rfl
  | ok rx =>
    rw [frameStep_of_ok h, frameStep_of_ok (s := { s with req := r }) h]
    exact advanceSp_withReq p { s.transacted f.kind f.tx f.n with rx := if f.keep then rx else s.rx } r

theorem pollStep_withReq : pollStep p { s with req := r } = { pollStep p s with req := r } := by
  cases h : s.nextAnswer 1 with
  | fault e => rw [pollStep_of_fault h, pollStep_of_fault (s := { s with req := r }) h]; rfl
  | ok rx =>
    cases hb : busy (firstByte rx) with
    | true => rw [pollStep_of_busy h hb, pollStep_of_busy (s := { s with req := r }) h hb]; rfl
    | false =>
      rw [pollStep_of_notBusy h hb, pollStep_of_notBusy (s := { s with req := r }) h hb]
      exact advanceSp_withReq p (s.transacted .sendRead [0x05] 1) r

theorem effect_withReq (c : ScriptStep) : c.effect p { s with req := r } = { c.effect p s with req := r } := by
  cases c with
  | frame f => exact frameStep_withReq p s r f
  | pollLoop => exact pollStep_withReq p s r

end

theorem effect_req (p : Plan) (s : State) (c : ScriptStep) : (c.effect p s).req = s.req := by
  obtain ⟨⟨hreq, -, -, -, -⟩, -⟩ := stepEffect_effect s p c
  exact hreq

/-! ### The step of an IDLE block, an equation for each case -/

theorem step_nothingPresented {s : State} (hr : s.resetAsserted = false) (hi : s.st = .idle) (hq : s.requests = []) :
    step s = .next s.sampled := by
  rw [step_eq, if_neg (by simp [hr]), if_pos hi, hq]

theorem step_accept {s : State} {w : ReqWord} {q : List ReqWord} {p : Plan} (hr : s.resetAsserted = false)
    (hi : s.st = .idle) (hq : s.requests = w :: q) (hp : requestPlan (Request.ofWord w) s.cfg = some p) :
    step s = .next (accept (Request.ofWord w) p { s.sampled with requests := q }) := by
  rw [step_eq, if_neg (by simp [hr]), if_pos hi, hq]
  simp only [hp]

theorem step_acceptIllegal {s : State} {w : ReqWord} {q : List ReqWord} (hr : s.resetAsserted = false)
    (hi : s.st = .idle) (hq : s.requests = w :: q) (hp : requestPlan (Request.ofWord w) s.cfg = none) :
    step s = .next (acceptIllegal (Request.ofWord w) { s.sampled with requests := q }) := by
  rw [step_eq, if_neg (by simp [hr]), if_pos hi, hq]
  simp only [hp]

theorem requestPlan_none_of_error {w : ReqWord} {e : DecodeError} (h : decodeRequest w = .error e) (cfg : Config) :
    requestPlan (Request.ofWord w) cfg = none := by
  unfold requestPlan
  rw [show (Request.ofWord w).decode = .error e from h]

/-! ### The step -/

/-- States of the same behaviour step to states of the same behaviour. -/
theorem step_sameBehaviour {s s' t : State} (h : s.sameBehaviour s') (hstep : step s = .next t) :
    ∃ t', step s' = .next t' ∧ t.sameBehaviour t' := by
  obtain ⟨r, q', hreq, hqs, rfl⟩ := sameBehaviour_iff.mp h
  rcases step_cases hstep with
    ⟨hr, rfl⟩ | ⟨hr, hi, hq, rfl⟩ | ⟨hr, hi, w, q, e, hq, hw, rfl⟩ | ⟨hr, hi, w, q, p, hq, hp, rfl⟩ |
    ⟨hr, hi, p, c, hp, hc, rfl⟩
  · -- a reset
    exact ⟨_, step_reset hr, sameRead_refl _, hqs, rfl⟩
  · -- IDLE, no word presented
    exact ⟨_, step_nothingPresented hr hi (sameReadWords_nil (hq ▸ hqs)), hreq, hqs, rfl⟩
  · -- an illegal request
    obtain ⟨w', q'', rfl, hww', hqs'⟩ := sameReadWords_cons (hq ▸ hqs)
    have hp' := (requestPlan_congr hww' s.cfg).symm.trans (requestPlan_none_of_error hw s.cfg)
    exact ⟨_, step_acceptIllegal hr hi rfl hp', hww', hqs', rfl⟩
  · -- an accept
    obtain ⟨w', q'', rfl, hww', hqs'⟩ := sameReadWords_cons (hq ▸ hqs)
    exact ⟨_, step_accept hr hi rfl ((requestPlan_congr hww' s.cfg).symm.trans hp), hww', hqs', rfl⟩
  · -- one step of the active request's script
    have hp' := (requestPlan_congr hreq s.cfg).symm.trans hp
    refine ⟨_, step_active hr hi hp' hc, sameBehaviour_iff.mpr ⟨r, q', ?_, ?_, ?_⟩⟩
    · rw [effect_req]; exact hreq
    · rw [effect_requests]; exact hqs
    · exact (effect_withRequests p { s.sampled with req := r } q' c).trans (by rw [effect_withReq])

/-- Settles O37, by induction on the number of steps; what is observed is in the parts of the state that are equal. -/
theorem unreadFieldsDoNotMatter : Obligations.UnreadFieldsDoNotMatter := by
  intro s s' t k h hrun
  induction k generalizing s s' with
  | zero =>
    cases hrun
    obtain ⟨r, q, -, -, rfl⟩ := sameBehaviour_iff.mp h
    exact ⟨_, run_zero _, h, rfl, rfl⟩
  | succ k ih =>
    obtain ⟨u, hu, hrun⟩ := run_succ_next hrun
    obtain ⟨u', hu', h'⟩ := step_sameBehaviour h hu
    rw [run_succ_of_next k hu']
    exact ih u u' h' hrun

end Sys2Proof.Machine
end

section
/-! SUPPORT. The frames that go out (30_encoding.md R79 to R81): a chip-frame row sends its bytes as the current step, and
every step of every script sends a frame of the opcode table. -/

namespace Sys2Proof.Machine

/-! ### A chip frame as the current step (log entry 13) -/

section
variable {s : State} {p : Plan} {c : ScriptStep}

theorem runFrame_active (ha : s.active) (hp : requestPlan s.req s.cfg = some p)
    (hc : p.script[s.sp.toNat]? = some c) (f : Frame) : runFrame f s = .next (frameStep p f s) := by
  unfold runFrame
  split
  next hi => exact absurd hi ha
  next => simp only [hp, hc]

theorem runStatusRead_active (ha : s.active) (hp : requestPlan s.req s.cfg = some p)
    (hc : p.script[s.sp.toNat]? = some c) :
    runStatusRead s = .next (ScriptStep.effect p s (if c = .pollLoop then .pollLoop else .frame .statusRead)) := by
  unfold runStatusRead
  split
  next hi => exact absurd hi ha
  next => cases c <;> simp only [hp, hc] <;> rfl

end

/-- A row whose meaning is `runFrame` of a frame sends that frame. -/
theorem sendsFrame_of_exec {i : Instr} {f : Frame} (h : ∀ s, exec i s = runFrame f s) : sendsFrame i f := by
  intro s p c ha hp hc
  exact ⟨_, (h s).trans (runFrame_active ha hp hc f), stepEffect_frameStep s p f⟩

/-- Settles O15, a row of R80 each. -/
theorem chipFramesSendTheirBytes : Obligations.ChipFramesSendTheirBytes := by
  refine ⟨fun d => ?_, ?_, fun a => ?_, fun a => ?_, fun a => ?_, ?_, fun a d => ?_, fun a n => ?_, fun a n => ?_,
    ?_, ?_, ?_, ?_, ?statusRead⟩
  case statusRead =>
    intro s p c ha hp hc
    exact ⟨_, runStatusRead_active ha hp hc, stepEffect_effect s p _⟩
  all_goals exact sendsFrame_of_exec fun _ => rfl

/-! ### The frames of the scripts (30_encoding.md R81) -/

/-- `align` to `2 ^ k` clears the low `k` bits (42_program_erase.md R137). -/
theorem lowClear_align (a : Addr24) (k : Nat) : Addr24.lowClear k (align a (2 ^ k)) = true := by
  rw [Addr24.lowClear, beq_iff_eq]
  apply Nat.eq_of_testBit_eq
  intro i
  rw [Nat.testBit_mod_two_pow, Nat.zero_testBit]
  by_cases hk : i < k
  · have hmask : (BitVec.ofNat 24 (2 ^ k - 1)).getLsbD i = decide (i < 24) := by simp [BitVec.getLsbD_ofNat, hk]
    rw [BitVec.testBit_toNat]
    simp [align, hmask]
  · simp [hk]

/-- The step sends a frame of the opcode table. -/
def ScriptStep.InTable (c : ScriptStep) : Prop :=
  ∃ j, decode (.frame c.sent) = .ok j

theorem inTable_pollLoop : ScriptStep.pollLoop.InTable := ⟨.frameStatusRead, rfl⟩

theorem inTable_of_encode {i : Instr} {f : Frame} (hwf : i.wellFormed = true) (h : encode i = .frame f) :
    (ScriptStep.frame f).InTable := ⟨i, decodeFrame_of_encode hwf h⟩

theorem inTable_of_mem_singleton {c d : ScriptStep} (hd : d.InTable) (hc : c ∈ [d]) : c.InTable :=
  List.mem_singleton.mp hc ▸ hd

theorem inTable_readFrame (cfg : Config) (a : Addr24) {n : Nat} (h : n ≤ Config.maxBytes) :
    (ScriptStep.frame (readFrame cfg a n)).InTable := by
  unfold readFrame
  split
  · exact ⟨_, decodeFrame_arrayRead a h⟩
  · exact ⟨_, decodeFrame_arrayReadLowFreq a h⟩

/-- The steps of WE(cfg) are polls, WRITEENABLE and STATUSWRITE (40_status_wait.md R110). -/
theorem mem_writeEnableSeq {cfg : Config} {c : ScriptStep} (h : c ∈ writeEnableSeq cfg) :
    c = .pollLoop ∨ c = .frame .writeEnable ∨ c = .frame (.statusWrite cfg.wrsrValue) := by
  unfold writeEnableSeq writeEnableFrames at h
  cases hpre : cfg.prePoll <;> cases hwe : cfg.weSeq <;> simp [hpre, hwe] at h <;> tauto

theorem inTable_of_mem_writeEnableSeq {cfg : Config} {c : ScriptStep} (h : c ∈ writeEnableSeq cfg) : c.InTable := by
  rcases mem_writeEnableSeq h with rfl | rfl | rfl
  · exact inTable_pollLoop
  · exact inTable_of_encode (i := .frameWriteEnable) rfl rfl
  · exact inTable_of_encode (i := .frameStatusWrite _) rfl rfl

theorem inTable_of_mem_erasePlan {cfg : Config} {f : Frame} {c : ScriptStep} (hf : (ScriptStep.frame f).InTable)
    (h : c ∈ (erasePlan cfg f).script) : c.InTable := by
  rcases List.mem_append.mp h with h | h
  · exact inTable_of_mem_writeEnableSeq h
  rcases List.mem_cons.mp h with rfl | h
  · exact hf
  · exact inTable_of_mem_singleton inTable_pollLoop h

/-- R81: every step of every script sends a frame of the opcode table. -/
theorem inTable_of_planOf {cfg : Config} {i : Instr} {p : Plan} (h : planOf cfg i = some p) {c : ScriptStep}
    (hc : c ∈ p.script) : c.InTable := by
  cases i with
  | readStatus f | isBusy f | poll f =>
    cases h; exact inTable_of_mem_singleton (inTable_of_encode (i := .frameStatusRead) rfl rfl) hc
  | wait f => cases h; exact inTable_of_mem_singleton inTable_pollLoop hc
  | sleep f => cases h; exact inTable_of_mem_singleton (inTable_of_encode (i := .frameSleep) rfl rfl) hc
  | wakeup f => cases h; exact inTable_of_mem_singleton (inTable_of_encode (i := .frameWake) rfl rfl) hc
  | readDeviceId f => cases h; exact inTable_of_mem_singleton (inTable_of_encode (i := .frameIdRead) rfl rfl) hc
  | readUniqueId f => cases h; exact inTable_of_mem_singleton (inTable_of_encode (i := .frameMacRead) rfl rfl) hc
  | readByte f => cases h; exact inTable_of_mem_singleton (inTable_readFrame _ _ (by decide)) hc
  | readBytes f => cases h; exact inTable_of_mem_singleton (inTable_readFrame _ _ (len_le_maxBytes f.len)) hc
  | enableWrite f => cases h; exact inTable_of_mem_writeEnableSeq hc
  | writeByte f =>
    cases h
    rcases List.mem_append.mp hc with hc | hc
    · exact inTable_of_mem_writeEnableSeq hc
    · exact inTable_of_mem_singleton (inTable_of_encode (i := .frameBytePageProgram _ _) rfl rfl) hc
  | chipErase f => cases h; exact inTable_of_mem_erasePlan (inTable_of_encode (i := .frameChipErase) rfl rfl) hc
  | erase4kBlock f =>
    cases h
    exact inTable_of_mem_erasePlan (inTable_of_encode (i := .frameBlockErase4k _) (lowClear_align _ 12) rfl) hc
  | erase32kBlock f =>
    cases h
    exact inTable_of_mem_erasePlan (inTable_of_encode (i := .frameBlockErase32k _) (lowClear_align _ 15) rfl) hc
  | erase64kBlock f =>
    cases h
    exact inTable_of_mem_erasePlan (inTable_of_encode (i := .frameBlockErase64k _) (lowClear_align _ 16) rfl) hc
  | _ => cases h

theorem transactions_of_movedOn {s t : State} {p : Plan} {x : Transaction} (h : s.movedOn t p x) :
    ∃ evs, t.trace = s.trace ++ evs ∧ transactionsOf evs = [x] := by
  obtain ⟨-, h⟩ := h
  split at h
  · obtain ⟨-, htr⟩ := h; exact ⟨_, htr, rfl⟩
  · obtain ⟨-, htr, -⟩ := h; exact ⟨_, htr, rfl⟩

/-- A step of a script makes one transaction, that of the frame it sends. -/
theorem transactions_of_stepEffect {s t : State} {p : Plan} {c : ScriptStep} (h : s.stepEffect t p c) :
    ∃ evs a, t.trace = s.trace ++ evs ∧ transactionsOf evs = [answered c.sent a] := by
  obtain ⟨-, h⟩ := h
  split at h
  next e _ =>
    obtain ⟨-, -, -, htr⟩ := h
    exact ⟨_, .fault e, htr, rfl⟩
  next rx _ =>
    suffices ∃ evs, t.trace = s.trace ++ evs ∧ transactionsOf evs = [answered c.sent (.ok rx)] from
      let ⟨evs, hevs⟩ := this; ⟨evs, .ok rx, hevs⟩
    cases c with
    | frame f =>
      obtain ⟨-, hmoved⟩ := h
      exact transactions_of_movedOn hmoved
    | pollLoop =>
      obtain ⟨-, h⟩ := h
      split at h
      · obtain ⟨-, -, -, htr⟩ := h; exact ⟨_, htr, rfl⟩
      · exact transactions_of_movedOn h

/-- Settles O21, along the cases of a step: only a step of a script makes a transaction. -/
theorem onlyTableFramesGoOut : Obligations.OnlyTableFramesGoOut := by
  intro s t hstep
  rcases step_cases hstep with
    ⟨-, rfl⟩ | ⟨-, -, -, rfl⟩ | ⟨-, -, w, q, e, -, -, rfl⟩ | ⟨-, -, w, q, p, -, -, rfl⟩ | ⟨-, -, p, c, hp, hc, rfl⟩
  · -- a reset
    exact ⟨[.reset], rfl, by simp [transactionsOf], by simp [transactionsOf]⟩
  · -- IDLE, no word presented
    exact ⟨[], (List.append_nil _).symm, by simp [transactionsOf], by simp [transactionsOf]⟩
  · -- an illegal request
    exact ⟨[.reply .illegalRequest], rfl, by simp [transactionsOf], by simp [transactionsOf]⟩
  · -- an accept
    exact ⟨[], (List.append_nil _).symm, by simp [transactionsOf], by simp [transactionsOf]⟩
  · -- one step of the active request's script
    obtain ⟨evs, a, htr, hone⟩ := transactions_of_stepEffect (stepEffect_effect s.sampled p c)
    obtain ⟨i, hi⟩ := planOf_of_requestPlan hp
    obtain ⟨j, hj⟩ := inTable_of_planOf hi (List.mem_of_getElem? hc)
    refine ⟨evs, htr, by simp [hone], fun x hx => ?_⟩
    rw [hone, List.mem_singleton] at hx
    exact ⟨c.sent.keep, j, by rw [hx]; exact hj⟩

end Sys2Proof.Machine
end

section
/-! SUPPORT. The assembler's checks and the spec's encoding examples (30_encoding.md R74, R84 to R87). -/

namespace Sys2Proof.Machine

/-! ### The examples of R87 -/

/-- A line that holds a request gives its word, before those of the lines that follow. -/
theorem asmLines_cons {l : List Char} {ls : List (List Char)} {w : ReqWord} {ws : List ReqWord}
    (hl : asmLine l = .ok (some w)) (hls : asmLines ls = .ok ws) : asmLines (l :: ls) = .ok (w :: ws) := by
  simp only [asmLines, hl, hls]

/-- Settles O3: the text is cut into its nine lines, and each line assembles to its word; the words decode by evaluation. -/
theorem encodingExamples : Obligations.EncodingExamples := by
  refine ⟨?_, by decide, by decide, by decide, by decide, by decide, by decide, by decide, by decide, by decide⟩
  calc assemble _
    _ = asmLines ["read_status".toList, "wait".toList, "read_byte 0x123456".toList, "read_bytes 0x001000, 4".toList,
          "write_byte 0x001000, 0xA5".toList, "erase_4k_block 0x12345".toList, "erase_64k_block 0xABCDEF".toList,
          "sleep".toList, "read_unique_id".toList] := congrArg asmLines (by simp [asmSplit])
    _ = .ok _ :=
      asmLines_cons (by decide) <| asmLines_cons (by decide) <| asmLines_cons (by decide) <|
      asmLines_cons (by decide) <| asmLines_cons (by decide) <| asmLines_cons (by decide) <|
      asmLines_cons (by decide) <| asmLines_cons (by decide) <| asmLines_cons (by decide) rfl

/-! ### The operands of a mnemonic (R84, R85) -/

theorem asmRequest_of_lookup {m : List Char} {op : BitVec 8} {shape : AsmShape}
    (h : asmLookup m asmTable = some (op, shape)) (l : List Nat) : asmRequest m l = asmOperands op shape l := by
  simp only [asmRequest, h]

theorem asmLookup_eq_none {m : List Char} {table : List (String × BitVec 8 × AsmShape)}
    (h : ∀ row ∈ table, row.1.toList ≠ m) : asmLookup m table = none := by
  induction table with
  | nil => rfl
  | cons row rest ih =>
    obtain ⟨hrow, hrest⟩ := List.forall_mem_cons.mp h
    exact (if_neg hrow).trans (ih hrest)

theorem asmOperands_none (op : BitVec 8) (l : List Nat) :
    asmOperands op .none l = match l with
      | [] => .ok (Request.toWord ⟨op, 0, 0, 0⟩)
      | _ => .error .wrongOperandCount := by
  cases l <;> rfl

theorem asmOperands_addr (op : BitVec 8) (l : List Nat) :
    asmOperands op .addr l = match l with
      | [a] => if a < 2 ^ 32 then .ok (Request.toWord ⟨op, 0, 0, BitVec.ofNat 32 a⟩) else .error .literalOutOfRange
      | _ => .error .wrongOperandCount := by
  match l with
  | [] | _ :: _ :: _ => rfl
  | [a] => simp [asmOperands, asmWord, asmInRange]

/-- Settles O4: each mnemonic is looked up in R84's table, and what is left is the operand list of its shape. -/
theorem assemblerChecksOperands : Obligations.AssemblerChecksOperands := by
  refine ⟨fun row hrow l => ?_, fun row hrow l => ?_, fun l => ?_, fun l => ?_, fun m l hm => ?_⟩
  · -- no operands
    have hlookup : asmLookup row.1.toList asmTable = some (row.2, .none) := by
      revert row; decide
    exact (asmRequest_of_lookup hlookup l).trans (asmOperands_none row.2 l)
  · -- an address
    have hlookup : asmLookup row.1.toList asmTable = some (row.2, .addr) := by
      revert row; decide
    exact (asmRequest_of_lookup hlookup l).trans (asmOperands_addr row.2 l)
  · -- an address and a length
    rw [asmRequest_of_lookup (op := 0x07) (shape := .addrLen) (by decide)]
    match l with
    | [] | [_] | _ :: _ :: _ :: _ => rfl
    | [a, n] => simp [asmOperands, asmWord, asmInRange]
  · -- an address and a data byte
    rw [asmRequest_of_lookup (op := 0x08) (shape := .addrData) (by decide)]
    match l with
    | [] | [_] | _ :: _ :: _ :: _ => rfl
    | [a, d] => simp [asmOperands, asmWord, asmInRange]
  · -- another mnemonic
    have hnone : asmLookup m asmTable = none := asmLookup_eq_none (by simpa [asmTable] using hm)
    simp only [asmRequest, hnone]

end Sys2Proof.Machine
end

section
/-! SUPPORT. How a table word is read (log entry 15): the word of a list of bytes, the first byte sent in the lowest bits,
is read back byte by byte. -/

namespace Sys2Proof

theorem decodeTableWord_eq (nbits w : Nat) : decodeTableWord nbits w = (decode (tableCode nbits w)).toOption := by
  unfold decodeTableWord
  cases decode (tableCode nbits w) <;> rfl

theorem decodeTableWord_request (w : ReqWord) : decodeTableWord 64 w.toNat = (decode (.request w)).toOption := by
  rw [decodeTableWord_eq, tableCode, if_pos rfl, BitVec.ofNat_toNat, BitVec.setWidth_eq]

/-- The table word of these bytes, the first byte sent in bits 7:0. -/
def tableWord : List Byte → Nat
  | [] => 0
  | b :: bs => b.toNat + 256 * tableWord bs

theorem tableWord_lt (bs : List Byte) : tableWord bs < 2 ^ (8 * bs.length) := by
  induction bs with
  | nil => exact Nat.one_pos
  | cons b bs ih =>
    rw [tableWord, List.length_cons, Nat.mul_succ, Nat.pow_add]
    have := b.isLt
    omega

/-- Bits 7:0 hold the first byte. -/
@[simp] theorem ofNat_tableWord_cons (b : Byte) (bs : List Byte) : BitVec.ofNat 8 (tableWord (b :: bs)) = b := by
  apply BitVec.eq_of_toNat_eq
  rw [BitVec.toNat_ofNat, tableWord]
  have := b.isLt
  omega

/-- The bytes of a table word are the bytes it was made of. -/
@[simp] theorem tableBytes_tableWord (bs : List Byte) : tableBytes bs.length (tableWord bs) = bs := by
  induction bs with
  | nil => rfl
  | cons b bs ih =>
    have hrest : tableWord (b :: bs) / 256 = tableWord bs := by
      have := b.isLt
      rw [tableWord]; omega
    rw [List.length_cons, tableBytes, ofNat_tableWord_cons, hrest, ih]

/-- A word of fewer than eight bytes is read as the frame that its bits stand for. -/
theorem decodeTableWord_tableWord {bs : List Byte} (h : bs.length < 8) :
    decodeTableWord (8 * bs.length) (tableWord bs) = (decodeFrame (tableFrame (tableWord bs))).toOption := by
  rw [decodeTableWord_eq, tableCode, if_neg (by omega), Nat.mod_eq_of_lt (tableWord_lt bs)]
  rfl

section
variable (a2 a1 a0 d : Byte)

theorem tableFrame_bytePageProgram :
    tableFrame (tableWord [0x02, a2, a1, a0, d]) = { kind := .send, tx := [0x02, a2, a1, a0, d], n := 0, keep := false } := by
  rw [tableFrame, ofNat_tableWord_cons]
  exact congrArg (Frame.mk _ · _ _) (tableBytes_tableWord [0x02, a2, a1, a0, d])

theorem tableFrame_arrayReadLowFreq :
    tableFrame (tableWord [0x03, a2, a1, a0]) = { kind := .sendRead, tx := [0x03, a2, a1, a0], n := 0, keep := true } := by
  rw [tableFrame, ofNat_tableWord_cons]
  exact congrArg (Frame.mk _ · _ _) (tableBytes_tableWord [0x03, a2, a1, a0])

theorem tableFrame_statusWrite :
    tableFrame (tableWord [0x01, d]) = { kind := .send, tx := [0x01, d], n := 0, keep := false } := by
  rw [tableFrame, ofNat_tableWord_cons]
  exact congrArg (Frame.mk _ · _ _) (tableBytes_tableWord [0x01, d])

theorem decodeTableWord_bytePageProgram :
    decodeTableWord 40 (tableWord [0x02, a2, a1, a0, d]) = some (.frameBytePageProgram (addrOfBytes a2 a1 a0) d) :=
  (decodeTableWord_tableWord (bs := [0x02, a2, a1, a0, d]) (by simp)).trans (by rw [tableFrame_bytePageProgram]; rfl)

theorem decodeTableWord_arrayReadLowFreq :
    decodeTableWord 32 (tableWord [0x03, a2, a1, a0]) = some (.frameArrayReadLowFreq (addrOfBytes a2 a1 a0) 0) :=
  (decodeTableWord_tableWord (bs := [0x03, a2, a1, a0]) (by simp)).trans (by rw [tableFrame_arrayReadLowFreq]; rfl)

theorem decodeTableWord_statusWrite : decodeTableWord 16 (tableWord [0x01, d]) = some (.frameStatusWrite d) :=
  (decodeTableWord_tableWord (bs := [0x01, d]) (by simp)).trans (by rw [tableFrame_statusWrite]; rfl)

end

/-- Settles O39: the request words by the width, the bare opcodes by evaluation, the operand bytes by reading a word's bytes
back. -/
theorem tableWordsDecode : Obligations.TableWordsDecode := by
  refine ⟨decodeTableWord_request, by decide, fun a2 a1 a0 d => ⟨?_, ?_, ?_⟩⟩
  · refine .trans (congrArg _ ?_) (decodeTableWord_bytePageProgram a2 a1 a0 d)
    simp only [tableWord]; bv_omega
  · refine .trans (congrArg _ ?_) (decodeTableWord_arrayReadLowFreq a2 a1 a0)
    simp only [tableWord]; bv_omega
  · refine .trans (congrArg _ ?_) (decodeTableWord_statusWrite d)
    simp only [tableWord]; bv_omega

end Sys2Proof
end

section
/-! SUPPORT. What a step runs (40_status_wait.md R100, R101; 20_memory.md R50): the presented word's instruction while IDLE,
and while a request is active the latched one, which is the chip frame of the script's current step; and how a placed
instruction comes to be the one that runs. -/

namespace Sys2Proof.Machine

/-! ### While IDLE (R100) -/

/-- Settles O6. -/
theorem stepRunsThePresentedRequest : Obligations.StepRunsThePresentedRequest := by
  intro s w q i hi hr hq hd
  have hdecode : decodeRequest w = .ok i := hd
  simp only [step, fetch_idle hr hi, fetchIdle, sampled_requests, hq, hdecode]
  rfl

/-- An instruction that decodes from a presented word runs as the request of that word. -/
theorem step_presented (s : State) {w : ReqWord} {i : Instr} (h : decodeRequest w = .ok i) :
    step (s.presented w) = exec i { s.presented w with requests := s.requests } :=
  stepRunsThePresentedRequest (s.presented w) w s.requests i rfl rfl rfl h

/-! ### While a request is active (R101) -/

/-- A request that has a plan decodes. -/
theorem decode_of_requestPlan {r : Request} {cfg : Config} {p : Plan} (h : requestPlan r cfg = some p) :
    ∃ i, r.decode = .ok i := by
  unfold requestPlan at h
  split at h
  next i hi => exact ⟨i, hi⟩
  next => cases h

theorem step_runs_latched {s : State} {i : Instr} (ha : s.active) (hr : s.resetAsserted = false)
    (hd : s.req.decode = .ok i) : step s = exec i s.sampled := by
  have hdecode : s.sampled.req.decode = .ok i := hd
  simp only [step, fetch_active hr ha, fetchActive, hdecode]

/-- A chip-frame row other than STATUSREAD runs as its frame. -/
theorem exec_of_encode_frame {j : Instr} {f : Frame} (h : encode j = .frame f) (s : State) :
    j = .frameStatusRead ∨ exec j s = runFrame f s := by
  cases j with
  | frameStatusRead => exact .inl rfl
  | _ => cases h <;> exact .inr rfl

/-- What a script step's frame decodes to has, as the current step, the effect of that script step. -/
theorem exec_currentFrame {s : State} {p : Plan} {c : ScriptStep} {j : Instr} (ha : s.active)
    (hp : requestPlan s.req s.cfg = some p) (hc : p.script[s.sp.toNat]? = some c)
    (hj : decodeFrame c.sent = .ok j) : exec j s = .next (c.effect p s) := by
  obtain ⟨henc, -⟩ := encode_of_decodeFrame hj
  rcases exec_of_encode_frame henc s with rfl | he
  · refine (runStatusRead_active ha hp hc).trans ?_
    cases c with
    | pollLoop => rfl
    | frame f => cases henc; rfl
  · cases c with
    | pollLoop => cases hj; exact runStatusRead_active ha hp hc
    | frame f => exact he.trans (runFrame_active ha hp hc f)

theorem step_runs_currentFrame {s : State} {p : Plan} {c : ScriptStep} {j : Instr} (ha : s.active)
    (hr : s.resetAsserted = false) (hp : requestPlan s.req s.cfg = some p) (hc : p.script[s.sp.toNat]? = some c)
    (hj : decodeFrame c.sent = .ok j) : step s = exec j s.sampled :=
  (step_active hr ha hp hc).trans (exec_currentFrame (s := s.sampled) ha hp hc hj).symm

/-- Settles O7: the latched request decodes because it has a plan, the step's frame because it is in the table (R81). -/
theorem stepRunsTheScriptsFrame : Obligations.StepRunsTheScriptsFrame := by
  intro s c ha hr hcur
  obtain ⟨p, hp, hc⟩ := plan_of_currentStep hcur
  obtain ⟨i, hi⟩ := decode_of_requestPlan hp
  obtain ⟨i', hplan⟩ := planOf_of_requestPlan hp
  obtain ⟨j, hj⟩ := inTable_of_planOf hplan (List.mem_of_getElem? hc)
  exact ⟨i, j, (decodeRequest_toWord s.req).trans hi, hj, step_runs_latched ha hr hi,
    step_runs_currentFrame ha hr hp hc hj⟩

/-! ### Placing an instruction (log entries 3 and 15) -/

/-- The address of a chip frame is the chip address of the plain request that sends it. -/
@[simp] theorem chipAddr_setWidth (a : Addr24) : chipAddr (a.setWidth 32) = a := by
  apply BitVec.eq_of_getLsbD_eq
  intro i hi
  simp [chipAddr, hi]
  omega

/-- An address with its low `k` bits clear is aligned already (42_program_erase.md R137). -/
theorem align_of_lowClear {k : Nat} {a : Addr24} (h : Addr24.lowClear k a = true) : align a (2 ^ k) = a := by
  apply BitVec.eq_of_getLsbD_eq
  intro i hi
  have hbit : i < k → a.getLsbD i = false := by
    intro hk
    have := Nat.testBit_mod_two_pow a.toNat k i
    rw [beq_iff_eq.mp h, Nat.zero_testBit] at this
    simpa [hk, BitVec.testBit_toNat] using this.symm
  by_cases hk : i < k
  · simp [align, hbit hk]
  · have hmask : (BitVec.ofNat 24 (2 ^ k - 1)).getLsbD i = false := by simp [BitVec.getLsbD_ofNat, hk]
    have hones : (0xFFFFFF#24).getLsbD i = true := by
      rw [show 0xFFFFFF#24 = BitVec.allOnes 24 from rfl, BitVec.getLsbD_allOnes, decide_eq_true hi]
    rw [align, BitVec.getLsbD_and, BitVec.getLsbD_and, BitVec.getLsbD_not, hmask, hones]
    simp [hi]

theorem currentStep_activeAt (s : State) {cfg : Config} {r : Request} {k : Nat} {p : Plan}
    (hp : requestPlan r cfg = some p) (hk : k < 8) : (s.activeAt cfg r k).currentStep = p.script[k]? := by
  have hsp : (s.activeAt cfg r k).sp.toNat = k := (BitVec.toNat_ofNat k 3).trans (Nat.mod_eq_of_lt hk)
  rw [currentStep_of_plan hp, hsp]

/-- The step after WE(cfg) is the gated request's own (40_status_wait.md R109). -/
theorem currentStep_activeAt_gated {s : State} {r : Request} {p : Plan} {c : ScriptStep} {rest : List ScriptStep}
    (hp : requestPlan r s.cfg = some p) (hscript : p.script = writeEnableSeq s.cfg ++ c :: rest) :
    (s.activeAt s.cfg r (writeEnableSeq s.cfg).length).currentStep = some c := by
  have := writeEnableSeq_length s.cfg
  rw [currentStep_activeAt s hp (by omega)]
  simp [hscript]

/-- A chip frame is placed as the current step of a request whose script sends it. -/
theorem currentStep_placeInstr (s : State) {i : Instr} {f : Frame} (hwf : i.wellFormed = true)
    (henc : encode i = .frame f) : (placeInstr s i).currentStep = some (.frame f) := by
  have haligned {k : Nat} {a : Addr24} (h : Addr24.lowClear k a = true) :
      align (chipAddr (a.setWidth 32)) (2 ^ k) = a := by rw [chipAddr_setWidth, align_of_lowClear h]
  cases i with
  | frameStatusRead | frameStatusWrite d | frameWriteEnable | frameIdRead | frameMacRead | frameSleep | frameWake =>
    cases henc; rfl
  | frameArrayRead a n =>
    cases henc
    exact congrArg (some <| ScriptStep.frame <| .arrayRead · n.toNat) (chipAddr_setWidth a)
  | frameArrayReadLowFreq a n =>
    cases henc
    exact congrArg (some <| ScriptStep.frame <| .arrayReadLowFreq · n.toNat) (chipAddr_setWidth a)
  | frameBlockErase4k a =>
    cases henc
    rw [placeInstr]
    exact currentStep_activeAt_gated (p := planErase4kBlock s.cfg ⟨0, 0, a.setWidth 32⟩) rfl
      (congrArg (writeEnableSeq s.cfg ++ [.frame <| .blockErase4k ·, .pollLoop]) (haligned hwf))
  | frameBlockErase32k a =>
    cases henc
    rw [placeInstr]
    exact currentStep_activeAt_gated (p := planErase32kBlock s.cfg ⟨0, 0, a.setWidth 32⟩) rfl
      (congrArg (writeEnableSeq s.cfg ++ [.frame <| .blockErase32k ·, .pollLoop]) (haligned hwf))
  | frameBlockErase64k a =>
    cases henc
    rw [placeInstr]
    exact currentStep_activeAt_gated (p := planErase64kBlock s.cfg ⟨0, 0, a.setWidth 32⟩) rfl
      (congrArg (writeEnableSeq s.cfg ++ [.frame <| .blockErase64k ·, .pollLoop]) (haligned hwf))
  | frameChipErase => cases henc; rw [placeInstr]; exact currentStep_activeAt_gated (p := planChipErase s.cfg) rfl rfl
  | frameBytePageProgram a d =>
    cases henc
    rw [placeInstr]
    exact currentStep_activeAt_gated (p := planWriteByte s.cfg ⟨d, 0, a.setWidth 32⟩) rfl
      (congrArg (writeEnableSeq s.cfg ++ [.frame <| .bytePageProgram · d]) (chipAddr_setWidth a))
  | _ => cases henc

theorem placeInstr_of_encode_frame (s : State) {i : Instr} {f : Frame} (h : encode i = .frame f) :
    ∃ cfg r k, placeInstr s i = s.activeAt cfg r k := by
  cases i <;> cases h <;> rw [placeInstr] <;> exact ⟨_, _, _, rfl⟩

/-- A request active at a step of its script runs what the step's frame decodes to. -/
theorem step_activeAt {s : State} {cfg : Config} {r : Request} {k : Nat} {c : ScriptStep} {j : Instr}
    (hcur : (s.activeAt cfg r k).currentStep = some c) (hj : decodeFrame c.sent = .ok j) :
    step (s.activeAt cfg r k) = exec j (s.activeAt cfg r k) := by
  obtain ⟨p, hp, hc⟩ := plan_of_currentStep hcur
  have hplan : requestPlan r cfg = some p := hp
  have hst : (s.activeAt cfg r k).st = seqStateAt p.script k := by simp only [State.activeAt, hplan]
  have ha : (s.activeAt cfg r k).active := fun h => seqStateAt_ne_idle p.script k (hst.symm.trans h)
  exact step_runs_currentFrame ha rfl hp hc hj

theorem placeInstr_of_encode_request (s : State) {i : Instr} {w : ReqWord} (h : encode i = .request w) :
    placeInstr s i = s.presented w := by
  cases i <;> cases h <;> rfl

/-- A placed request runs as a presented word, a placed chip frame as the current step. -/
theorem step_placeInstr (s : State) {i : Instr} (h : i.wellFormed = true) :
    step (placeInstr s i) = exec i { placeInstr s i with requests := s.requests } := by
  cases henc : encode i with
  | request w =>
    rw [placeInstr_of_encode_request s henc]
    exact step_presented s (decodeRequest_of_encode henc)
  | frame f =>
    have hcur := currentStep_placeInstr s h henc
    obtain ⟨cfg, r, k, hplace⟩ := placeInstr_of_encode_frame s henc
    rw [hplace] at hcur ⊢
    exact step_activeAt hcur (decodeFrame_of_encode h henc)

/-- Placing a table word from which an instruction is read is placing that instruction. -/
theorem withFetchWord_of_decodeTableWord (s : State) {nbits w : Nat} {i : Instr}
    (h : decodeTableWord nbits w = some i) : s.withFetchWord nbits w = placeInstr s i ∧ i.wellFormed = true := by
  have hd : decode (tableCode nbits w) = .ok i := by
    unfold decodeTableWord at h
    split at h
    next hj => cases h; exact hj
    next => cases h
  obtain ⟨henc, hwf⟩ := encodeOfDecode _ _ hd
  refine ⟨?_, hwf⟩
  unfold State.withFetchWord placeWord
  cases hcode : tableCode nbits w with
  | request v => exact (placeInstr_of_encode_request s (henc.trans hcode)).symm
  | frame f =>
    simp only [decodeFrame_of_encode hwf (henc.trans hcode)]

/-- Settles O8: a placed instruction runs, and a table word that decodes is placed as the instruction it decodes to. -/
theorem placedInstructionRuns : Obligations.PlacedInstructionRuns := by
  refine ⟨fun s i => step_placeInstr s, fun s nbits w i hw => ?_⟩
  obtain ⟨hplace, hwf⟩ := withFetchWord_of_decodeTableWord s hw
  rw [hplace]
  exact step_placeInstr s hwf

end Sys2Proof.Machine
end

section
/-! SUPPORT. The accept (40_status_wait.md R100): what it latches, which OPs it activates, and `st` at the first step of each
script (R24); the step of an active request (R101). -/

namespace Sys2Proof.Machine

/-! ### WE(cfg), row by row (R110) -/

theorem writeEnableSeq_eq_weRow (cfg : Config) : writeEnableSeq cfg = weRow cfg := by
  obtain ⟨_, weSeq, _, prePoll⟩ := cfg
  cases prePoll <;> cases weSeq <;> rfl

/-- Settles O20. -/
theorem gatedScriptsBeginWithWriteEnable : Obligations.GatedScriptsBeginWithWriteEnable := by
  intro cfg f i hi
  rw [← writeEnableSeq_eq_weRow]
  rcases hi with rfl | rfl | rfl | rfl | rfl | rfl
  · exact ⟨_, [], rfl, (List.append_nil _).symm⟩
  all_goals exact ⟨_, _, rfl, rfl⟩

/-! ### `st` at the first step (R24) -/

/-- A gated request begins with a poll exactly if PRE_POLL asks for one (R108 to R110). -/
theorem seqStateAt_writeEnableSeq_append (cfg : Config) (rest : List ScriptStep) :
    seqStateAt (writeEnableSeq cfg ++ rest) 0 = if cfg.prePoll then .awaitingNotBusy else .issuing := by
  obtain ⟨_, weSeq, _, prePoll⟩ := cfg
  cases prePoll <;> cases weSeq <;> rfl

theorem seqStateAt_writeEnableSeq (cfg : Config) :
    seqStateAt (writeEnableSeq cfg) 0 = if cfg.prePoll then .awaitingNotBusy else .issuing := by
  simpa using seqStateAt_writeEnableSeq_append cfg []

/-- While IDLE a request's meaning is its accept, with `st` that of the first step of the dispatcher's plan. -/
theorem exec_idle {s : State} {i : Instr} {w : ReqWord} {p : Plan} {st : SeqState} (hi : s.st = .idle)
    (hw : encode i = .request w) (hp : planOf s.cfg i = some p) (hst : seqStateAt p.script 0 = st) :
    exec i s = .next { s with req := Request.ofWord w, rx := [], sp := 0, st := st } := by
  obtain ⟨p', hp', -, he⟩ := exec_of_request (decodeRequest_of_encode hw) s
  cases hp.symm.trans hp'
  rw [he, runRequest_idle hi, ← hst]
  rfl

/-- Settles O11: an ungated script's first step is its only one; a gated script's is the first step of WE(cfg). -/
theorem eachRequestIsAccepted : Obligations.EachRequestIsAccepted := by
  intro s i w hi hw
  cases i with
  | readStatus f | isBusy f | wait f | poll f | sleep f | wakeup f | readDeviceId f | readUniqueId f | readByte f
  | readBytes f => exact exec_idle hi hw rfl rfl
  | enableWrite f => exact exec_idle hi hw rfl (seqStateAt_writeEnableSeq s.cfg)
  | writeByte f | chipErase f | erase4kBlock f | erase32kBlock f | erase64kBlock f =>
    exact exec_idle hi hw rfl (seqStateAt_writeEnableSeq_append s.cfg _)
  | _ => cases hw

/-! ### The legal OPs (30_encoding.md R74, R78) -/

/-- An OP decodes exactly if it is 0x01 to 0x10. -/
theorem decodeOp_eq_ok_iff (op : BitVec 8) (f : Operands) :
    (∃ i, decodeOp op f = .ok i) ↔ 0x01 ≤ op.toNat ∧ op.toNat ≤ 0x10 := by
  unfold decodeOp
  split
  case h_17 =>
    -- a reserved OP
    simp_all [← BitVec.toNat_inj]
    omega
  all_goals simp

theorem requestPlan_isSome_iff (r : Request) (cfg : Config) :
    (∃ p, requestPlan r cfg = some p) ↔ 0x01 ≤ r.op.toNat ∧ r.op.toNat ≤ 0x10 := by
  rw [← decodeOp_eq_ok_iff r.op r.operands]
  constructor
  · rintro ⟨p, hp⟩
    exact decode_of_requestPlan hp
  · rintro ⟨i, hi⟩
    obtain ⟨p, -, hp, -⟩ := exec_of_request (r := r) hi { State.reset with cfg := cfg }
    exact ⟨p, hp⟩

/-- R24: the accept of a request with a plan leaves `st` that of the script's first step. -/
theorem sequencerOk_accept {r : Request} {p : Plan} {s : State} (hp : requestPlan r s.cfg = some p) :
    (accept r p s).sequencerOk := by
  obtain ⟨i, hi⟩ := planOf_of_requestPlan hp
  exact sequencerOk_of_seqStateAt hp (planOf_script_length hi).1 rfl

/-- Settles O10: the word's OP has a plan, and is accepted, or has none and is refused; a step of an active request leaves
`req` and the presented words. -/
theorem acceptLatchesTheRequest : Obligations.AcceptLatchesTheRequest := by
  intro s hr
  refine ⟨fun w q hi hq => ?_, fun ha t hstep => ?_⟩
  · have hlegal := requestPlan_isSome_iff (Request.ofWord w) s.cfg
    rw [ofWord_op] at hlegal
    cases hp : requestPlan (Request.ofWord w) s.cfg with
    | some p =>
      refine ⟨_, step_accept hr hi hq hp, rfl, rfl, rfl, rfl, rfl, rfl, rfl, rfl, rfl, ?_⟩
      rw [if_pos (hlegal.mp ⟨p, hp⟩)]
      exact ⟨seqStateAt_ne_idle p.script 0, sequencerOk_accept hp, rfl, rfl⟩
    | none =>
      refine ⟨_, step_acceptIllegal hr hi hq hp, rfl, rfl, rfl, rfl, rfl, rfl, rfl, rfl, rfl, ?_⟩
      have hreserved := mt hlegal.mpr (by simp [hp])
      rw [if_neg hreserved]
      exact ⟨⟨rfl, rfl, rfl, rfl, rfl⟩, rfl⟩
  · rcases step_cases hstep with
      ⟨hreset, -⟩ | ⟨-, hi, -⟩ | ⟨-, hi, -⟩ | ⟨-, hi, -⟩ | ⟨-, -, p, c, -, -, rfl⟩
    · -- a reset
      cases hreset.symm.trans hr
    -- the cases of an IDLE block
    · exact absurd hi ha
    · exact absurd hi ha
    · exact absurd hi ha
    · -- one step of the active request's script
      exact ⟨effect_req p s.sampled c, effect_requests p s.sampled c⟩

/-! ### One step of an active request (R101) -/

/-- Settles O14: the request's meaning takes the script's current step, whose effect is `stepEffect_effect`. -/
theorem eachRequestTakesItsStep : Obligations.EachRequestTakesItsStep := by
  refine ⟨fun s i w p c hw ha hreq hp hc => ?_, fun s hi hr hq => step_nothingPresented hr hi hq⟩
  obtain ⟨p', hp', -, he⟩ := exec_of_request (decodeRequest_of_encode hw) s
  cases hp.symm.trans hp'
  exact ⟨_, (he.trans (runRequest_active ha hreq)).trans (takeStep_some hc), stepEffect_effect s p c⟩

end Sys2Proof.Machine
end

section
/-! SUPPORT. A whole request against given answers (40_status_wait.md R100 to R102): the run of a script, one lemma for every
plan, from which what each request does is read off its own plan. -/

namespace Sys2Proof.Machine

/-! ### What a script does against answers -/

/-- A script that takes an answer: a busy poll stays at its step, every other step is done. -/
theorem progress_cons {σ : List ScriptStep} {rx : List Byte} {a : Answer} {as : List Answer} {pg : Progress}
    (h : progress σ rx (a :: as) = some pg) :
    ∃ c ss bs pg', σ = c :: ss ∧ a = .ok bs ∧ bs.length = c.sent.n ∧
      ((c = .pollLoop ∧ busy (firstByte bs) = true ∧ progress σ rx as = some pg' ∧
          pg = pg'.after (answered c.sent (.ok bs)) 0) ∨
       ((c = .pollLoop → busy (firstByte bs) = false) ∧ progress ss (if c.keeps then bs else rx) as = some pg' ∧
          pg = pg'.after (answered c.sent (.ok bs)) 1)) := by
  unfold progress at h
  split at h
  next => contradiction
  next f ss bs as' heq =>
    cases heq
    split at h
    next hlen =>
      obtain ⟨pg', hpg', rfl⟩ := Option.map_eq_some_iff.mp h
      exact ⟨_, _, _, pg', rfl, rfl, hlen, .inr ⟨nofun, hpg', rfl⟩⟩
    next => cases h
  next ss b as' heq =>
    cases heq
    split at h
    next hb =>
      obtain ⟨pg', hpg', rfl⟩ := Option.map_eq_some_iff.mp h
      exact ⟨_, _, _, pg', rfl, rfl, rfl, .inl ⟨rfl, hb, hpg', rfl⟩⟩
    next hb =>
      obtain ⟨pg', hpg', rfl⟩ := Option.map_eq_some_iff.mp h
      exact ⟨_, _, _, pg', rfl, rfl, rfl, .inr ⟨fun _ => Bool.eq_false_iff.mpr hb, hpg', rfl⟩⟩
  next => cases h

theorem progress_nil (σ : List ScriptStep) (rx : List Byte) :
    progress σ rx [] = some { made := [], step := 0, rx := rx } := by
  simp [progress]

/-- One transaction an answer, and no step beyond the script's end. -/
theorem progress_bounds {σ : List ScriptStep} {rx : List Byte} {as : List Answer} {pg : Progress}
    (h : progress σ rx as = some pg) : pg.made.length = as.length ∧ pg.step ≤ σ.length := by
  induction as generalizing σ rx pg with
  | nil => cases (progress_nil σ rx).symm.trans h; exact ⟨rfl, Nat.zero_le _⟩
  | cons a as ih =>
    obtain ⟨c, ss, bs, pg', rfl, -, -, ⟨-, -, hpg', rfl⟩ | ⟨-, hpg', rfl⟩⟩ := progress_cons h
    · obtain ⟨hmade, hstep⟩ := ih hpg'
      exact ⟨congrArg (· + 1) hmade, hstep⟩
    · obtain ⟨hmade, hstep⟩ := ih hpg'
      exact ⟨congrArg (· + 1) hmade, Nat.succ_le_succ hstep⟩

/-! ### The state that a script has come to -/

/-- `s` after the transactions of `pg`; `st` and the response are left to `settle`. -/
def State.progressed (s : State) (pg : Progress) : State :=
  { s with
    sp := s.sp + BitVec.ofNat 3 pg.step
    rx := pg.rx
    answers := s.answers.drop pg.made.length
    draws := s.draws + pg.made.length
    trace := s.trace ++ pg.made.map .transaction }

/-- R24: `s` with the `st` of the script's step at `sp`. -/
def State.atStep (s : State) (p : Plan) : State :=
  { s with st := seqStateAt p.script s.sp.toNat }

/-- R26, R101: what the script has come to at `sp`: at its end the OK response, before it the next step. -/
def settle (p : Plan) (s : State) : State :=
  if s.sp.toNat = p.script.length then endRequest (.ok (p.value s.rx) (p.data s.rx)) s
  else s.atStep p

section
variable {p : Plan} {s : State}

theorem settle_of_end (h : s.sp.toNat = p.script.length) :
    settle p s = endRequest (.ok (p.value s.rx) (p.data s.rx)) s := if_pos h

theorem settle_of_lt (h : s.sp.toNat < p.script.length) :
    settle p s = s.atStep p := if_neg h.ne

/-- `settle` writes `st`, whatever it was. -/
theorem settle_atStep_progressed (p : Plan) (s : State) (pg : Progress) :
    settle p ((s.atStep p).progressed pg) = settle p (s.progressed pg) := rfl

/-- Moving on from a step is coming to the next. -/
theorem advanceSp_eq_settle (p : Plan) (s : State) : advanceSp p s = settle p { s with sp := s.sp + 1 } := rfl

/-- An accept comes to step 0. -/
theorem accept_eq_settle {r : Request} (hp : requestPlan r s.cfg = some p) : accept r p s = settle p (latch r s) := by
  obtain ⟨i, hi⟩ := planOf_of_requestPlan hp
  exact (settle_of_lt (s := latch r s) (planOf_script_length hi).1).symm

@[simp] theorem settle_sp (p : Plan) (s : State) : (settle p s).sp = s.sp := by unfold settle; split <;> rfl
@[simp] theorem settle_rx (p : Plan) (s : State) : (settle p s).rx = s.rx := by unfold settle; split <;> rfl
@[simp] theorem settle_requests (p : Plan) (s : State) : (settle p s).requests = s.requests := by
  unfold settle; split <;> rfl
@[simp] theorem settle_answers (p : Plan) (s : State) : (settle p s).answers = s.answers := by
  unfold settle; split <;> rfl
@[simp] theorem settle_transactions (p : Plan) (s : State) :
    transactionsOf (settle p s).trace = transactionsOf s.trace := by
  unfold settle
  split
  · simp [transactionsOf]
  · rfl

end

theorem progressed_nil (s : State) : s.progressed { made := [], step := 0, rx := s.rx } = s := by
  unfold State.progressed
  simp

/-- One transaction and then the others. -/
theorem progressed_after (s : State) (x : Transaction) (k : Nat) (rx : List Byte) (pg : Progress) :
    (s.progressed { made := [x], step := k, rx := rx }).progressed pg = s.progressed (pg.after x k) := by
  simp only [State.progressed, Progress.after, State.mk.injEq, true_and]
  refine ⟨?_, ?_, ?_, ?_⟩
  · rw [BitVec.add_assoc, BitVec.ofNat_add, BitVec.add_comm (BitVec.ofNat 3 k)]
  · simp
  · simp; omega
  · simp

/-! ### The effect of a step against a listed answer -/

section
variable {s : State} {c : ScriptStep} {bs : List Byte} {as : List Answer}

theorem effect_of_busy (p : Plan) (hans : s.answers = .ok bs :: as) (hlen : bs.length = 1)
    (hb : busy (firstByte bs) = true) :
    ScriptStep.pollLoop.effect p s =
      s.progressed { made := [answered ScriptStep.pollLoop.sent (.ok bs)], step := 0, rx := s.rx } := by
  have hnext : s.nextAnswer 1 = .ok bs := hlen ▸ nextAnswer_listed_ok hans
  refine (pollStep_of_busy hnext hb).trans ?_
  simp [State.transacted, State.progressed, hnext, answered, ScriptStep.sent]

theorem effect_of_done (p : Plan) (hans : s.answers = .ok bs :: as) (hlen : bs.length = c.sent.n)
    (hb : c = .pollLoop → busy (firstByte bs) = false) :
    c.effect p s = settle p
      (s.progressed { made := [answered c.sent (.ok bs)], step := 1, rx := if c.keeps then bs else s.rx }) := by
  have hnext : s.nextAnswer c.sent.n = .ok bs := hlen ▸ nextAnswer_listed_ok hans
  cases c with
  | frame f =>
    refine (frameStep_of_ok hnext).trans ?_
    simp [advanceSp_eq_settle, State.transacted, State.progressed, show s.nextAnswer f.n = _ from hnext, answered,
      ScriptStep.sent, ScriptStep.keeps]
    rfl
  | pollLoop =>
    refine (pollStep_of_notBusy hnext (hb rfl)).trans ?_
    simp [advanceSp_eq_settle, State.transacted, State.progressed, show s.nextAnswer 1 = _ from hnext, answered,
      ScriptStep.sent, ScriptStep.keeps]

end

/-! ### The run of a script -/

theorem sampled_of_quiet {s : State} (hr : s.resetLine = []) : s.sampled = s := by
  have htail : s.resetLine.tail = s.resetLine := by rw [hr]; rfl
  rw [State.sampled, htail]

/-- The step of an active request while the reset line is quiet for good. -/
theorem step_active_quiet {s : State} {p : Plan} {c : ScriptStep} (hr : s.resetLine = []) (ha : s.active)
    (hp : requestPlan s.req s.cfg = some p) (hc : p.script[s.sp.toNat]? = some c) : step s = .next (c.effect p s) := by
  have hstep := step_active (by rw [State.resetAsserted, hr]; rfl) ha hp hc
  rwa [sampled_of_quiet hr] at hstep

/-- A request that has come to a step of its script takes it. -/
theorem step_settle {s : State} {p : Plan} {c : ScriptStep} (hr : s.resetLine = [])
    (hp : requestPlan s.req s.cfg = some p) (hc : p.script[s.sp.toNat]? = some c) :
    step (settle p s) = .next (c.effect p (s.atStep p)) := by
  rw [settle_of_lt (List.getElem?_eq_some_iff.mp hc).1]
  exact step_active_quiet hr (seqStateAt_ne_idle p.script s.sp.toNat) hp hc

/-- `sp` does not wrap inside a script (10_state.md R26). -/
theorem toNat_progressed_sp {s : State} {p : Plan} {pg : Progress} (hp : requestPlan s.req s.cfg = some p)
    (hle : s.sp.toNat + pg.step ≤ p.script.length) : (s.progressed pg).sp.toNat = s.sp.toNat + pg.step := by
  obtain ⟨i, hi⟩ := planOf_of_requestPlan hp
  have hlen : p.script.length ≤ 6 := (planOf_script_length hi).2
  rw [State.progressed, BitVec.toNat_add, BitVec.toNat_ofNat, Nat.add_mod_mod]
  exact Nat.mod_eq_of_lt (show _ < 8 by omega)

/-- A busy poll comes to the step it began at. -/
theorem atStep_progressed_of_stays {s : State} {p : Plan} (hlt : s.sp.toNat < p.script.length) {pg : Progress}
    (hstep : pg.step = 0) : (s.atStep p).progressed pg = settle p (s.progressed pg) := by
  have hsp : (s.progressed pg).sp = s.sp := by simp [State.progressed, hstep]
  rw [settle_of_lt (by rwa [hsp]), State.atStep, State.atStep, hsp]
  simp [State.progressed, hstep]

/-- Answers that fit the rest of the script drive the request through it, one step an answer: by induction on the answers,
each a busy poll or a step done. -/
theorem run_settle {s : State} {p : Plan} {as rest : List Answer} {pg : Progress} (hr : s.resetLine = [])
    (hp : requestPlan s.req s.cfg = some p) (hans : s.answers = as ++ rest)
    (hpg : progress (p.script.drop s.sp.toNat) s.rx as = some pg) :
    run as.length (settle p s) = .next (settle p (s.progressed pg)) := by
  induction as generalizing s pg with
  | nil =>
    cases (progress_nil _ _).symm.trans hpg
    rw [progressed_nil]; rfl
  | cons a as ih =>
    obtain ⟨c, ss, bs, pg', hdrop, rfl, hlen, h⟩ := progress_cons hpg
    have hc : p.script[s.sp.toNat]? = some c := by rw [← List.head?_drop, hdrop]; rfl
    have hlt : s.sp.toNat < p.script.length := (List.getElem?_eq_some_iff.mp hc).1
    rw [List.length_cons, run_succ_of_next _ (step_settle hr hp hc)]
    have hrest : s.answers.drop 1 = as ++ rest := by rw [hans]; rfl
    rcases h with ⟨rfl, hb, hpg', rfl⟩ | ⟨hb, hpg', rfl⟩
    · -- a busy poll
      rw [effect_of_busy p (s := s.atStep p) hans hlen hb, atStep_progressed_of_stays hlt rfl,
        ← progressed_after s _ 0 s.rx]
      refine ih hr hp hrest ?_
      rw [toNat_progressed_sp hp]
      · exact hpg'
      · exact hlt.le
    · -- a step done
      rw [effect_of_done p (s := s.atStep p) hans hlen hb, settle_atStep_progressed,
        ← progressed_after s _ 1 (if c.keeps then bs else s.rx)]
      refine ih hr hp hrest ?_
      rw [toNat_progressed_sp hp]
      · rwa [← List.tail_drop, hdrop]
      · exact hlt

/-! ### A presented request -/

/-- The state in which the presented word `w` has been latched (R100), with its script still to run. -/
def State.taken (s : State) (w : ReqWord) (q : List ReqWord) : State :=
  latch (Request.ofWord w) { s with requests := q }

/-- An IDLE block accepts the presented word and runs its script as far as the answers drive it. -/
theorem run_presented {s : State} {w : ReqWord} {q : List ReqWord} {p : Plan} {as rest : List Answer} {pg : Progress}
    (hi : s.st = .idle) (hr : s.resetLine = []) (hq : s.requests = w :: q)
    (hp : requestPlan (Request.ofWord w) s.cfg = some p) (hans : s.answers = as ++ rest)
    (hpg : progress p.script [] as = some pg) :
    run (1 + as.length) s = .next (settle p ((s.taken w q).progressed pg)) := by
  have haccept := step_accept (by rw [State.resetAsserted, hr]; rfl) hi hq hp
  rw [sampled_of_quiet hr, accept_eq_settle (s := { s with requests := q }) hp] at haccept
  rw [run_add 1 as.length (run_succ_of_next 0 haccept)]
  exact run_settle hr hp hans hpg

/-- A request whose current step faults ends with TransportFault at that step (60_exceptions.md R171). -/
theorem step_settle_fault {s : State} {p : Plan} {c : ScriptStep} {e : TFault} {rest : List Answer}
    (hr : s.resetLine = []) (hp : requestPlan s.req s.cfg = some p) (hc : p.script[s.sp.toNat]? = some c)
    (hans : s.answers = .fault e :: rest) :
    ∃ t, step (settle p s) = .next t ∧ t.endedFault e s.sp ∧
      t.trace = s.trace ++ [.transaction (answered c.sent (.fault e)), .reply (.transportFault e s.sp)] ∧
      t.req = s.req ∧ t.sp = s.sp ∧ t.rx = s.rx ∧ t.cfg = s.cfg ∧ t.requests = s.requests ∧ t.resetLine = [] ∧
      t.answers = rest := by
  obtain ⟨⟨hreq, hcfg, hrequests, hline, htail⟩, heffect⟩ := stepEffect_effect (s.atStep p) p c
  simp only [nextAnswer_listed_fault (s := s.atStep p) hans] at heffect
  obtain ⟨hended, hsp, hrx, htrace⟩ := heffect
  exact ⟨_, step_settle hr hp hc, hended, htrace, hreq, hsp, hrx, hcfg, hrequests, hline.trans hr,
    htail.trans (congrArg List.tail hans)⟩

/-- What `runsScript` says of a request follows from its plan. -/
theorem runsScript_of_planOf {op : BitVec 8} {mk : Operands → Instr} {σ : Config → Operands → List ScriptStep}
    {value : List Byte → Byte} {data : List Byte → List Byte} (hdecode : ∀ f, decodeOp op f = .ok (mk f))
    (hplan : ∀ cfg f, planOf cfg (mk f) = some { script := σ cfg f, value := value, data := data }) :
    runsScript op mk σ value data := by
  refine ⟨fun w hop => by subst hop; exact hdecode _, ?_⟩
  intro s w q as pg f hi hr hq hop hpg
  have hp : requestPlan (Request.ofWord w) s.cfg = some { script := σ s.cfg f, value := value, data := data } := by
    have hd : (Request.ofWord w).decode = .ok (mk f) := by subst hop; exact hdecode f
    simp only [requestPlan, hd]
    exact hplan s.cfg f
  obtain ⟨hmade, hle⟩ := progress_bounds hpg
  have hzero : ((s.taken w q).progressed pg).sp = BitVec.ofNat 3 pg.step := BitVec.zero_add _
  have hsp : ((s.taken w q).progressed pg).sp.toNat = pg.step :=
    (toNat_progressed_sp (s := s.taken w q) hp ((Nat.zero_add _).trans_le hle)).trans (Nat.zero_add _)
  have hanswers {rest : List Answer} (hans : s.answers = as ++ rest) :
      ((s.taken w q).progressed pg).answers = rest := by
    show s.answers.drop pg.made.length = rest
    rw [hans, hmade, List.drop_left]
  refine ⟨fun rest hend hans => ?_, fun rest hlt hans => ?_, fun c e rest hc hans => ?_⟩
  all_goals have hrun := run_presented hi hr hq hp hans hpg
  · -- the script's end
    rw [settle_of_end (hsp.trans hend)] at hrun
    exact ⟨_, hrun, ⟨rfl, rfl, rfl, rfl, rfl⟩, rfl, rfl, hsp, rfl, rfl, rfl, hr, hanswers hans⟩
  · -- part way
    rw [settle_of_lt (hsp.trans_lt hlt)] at hrun
    exact ⟨_, hrun, seqStateAt_ne_idle _ _, rfl, rfl, rfl, hsp, rfl, rfl, rfl, hr, hanswers hans⟩
  · -- a fault
    obtain ⟨t, hstep, hended, htrace, hreq, hsp', hrx, hcfg, hrequests, hline, hrest⟩ :=
      step_settle_fault (s := (s.taken w q).progressed pg) hr hp (hsp.symm ▸ hc) (hanswers hans)
    rw [hzero] at hended htrace
    exact ⟨t, (run_add _ 1 hrun).trans (run_succ_of_next 0 hstep), hended, htrace, hreq, (congrArg _ hsp').trans hsp,
      hrx, hcfg, hrequests, hline, hrest⟩

/-- Settles O22. -/
theorem statusRequestsRun : Obligations.StatusRequestsRun :=
  ⟨runsScript_of_planOf (fun _ => rfl) fun _ _ => rfl, runsScript_of_planOf (fun _ => rfl) fun _ _ => rfl,
    runsScript_of_planOf (fun _ => rfl) fun _ _ => rfl⟩

/-- Settles O23; enable_write's script is WE(cfg) as R110 tabulates it. -/
theorem waitAndEnableWriteRun : Obligations.WaitAndEnableWriteRun :=
  ⟨runsScript_of_planOf (fun _ => rfl) fun _ _ => rfl,
    runsScript_of_planOf (fun _ => rfl) fun cfg _ => by rw [← writeEnableSeq_eq_weRow]; rfl⟩

end Sys2Proof.Machine
end

section
/-! SUPPORT. Polling (40_status_wait.md R102, R107): how many polls a POLL_LOOP makes, and a host loop of poll requests beside
one wait. -/

namespace Sys2Proof.Machine

/-! ### The poll loop (R102) -/

/-- A poll that read the status byte `b`. -/
def polled (b : Byte) : Transaction := ⟨.sendRead, [0x05], 1, .ok [b]⟩

/-- While they read busy, the polls go out one a step and change nothing of the block. -/
theorem run_busyPolls {s : State} {p : Plan} {bs : List Byte} {rest : List Answer} (hr : s.resetLine = [])
    (ha : s.active) (hp : requestPlan s.req s.cfg = some p) (hc : p.script[s.sp.toNat]? = some .pollLoop)
    (hbusy : ∀ b ∈ bs, b.getLsbD 0 = true) (hans : s.answers = bs.map (fun b => Answer.ok [b]) ++ rest) :
    run bs.length s = .next (s.progressed { made := bs.map polled, step := 0, rx := s.rx }) := by
  induction bs generalizing s with
  | nil => exact congrArg _ (progressed_nil s).symm
  | cons b bs ih =>
    obtain ⟨hb, hbs⟩ := List.forall_mem_cons.mp hbusy
    have hstep := step_active_quiet hr ha hp hc
    rw [effect_of_busy p hans rfl hb] at hstep
    have hsp : (s.progressed { made := [polled b], step := 0, rx := s.rx }).sp = s.sp := BitVec.add_zero _
    have hrest : s.answers.drop 1 = bs.map (fun b => Answer.ok [b]) ++ rest := by rw [hans]; rfl
    rw [List.length_cons, run_succ_of_next _ hstep]
    refine (ih (s := s.progressed { made := [polled b], step := 0, rx := s.rx }) hr ha hp (hsp.symm ▸ hc) hbs
      hrest).trans ?_
    exact congrArg _ (progressed_after s (polled b) 0 s.rx _)

/-- Settles O29: the busy polls by `run_busyPolls`; the first that is not busy is a step done. -/
theorem pollLoopPollsUntilNotBusy : Obligations.PollLoopPollsUntilNotBusy := by
  intro s bs rest ha hr hcur hbusy hans
  obtain ⟨p, hp, hc⟩ := plan_of_currentStep hcur
  have hrun := run_busyPolls hr ha hp hc hbusy hans
  have hsp : (s.progressed { made := bs.map polled, step := 0, rx := s.rx }).sp = s.sp := BitVec.add_zero _
  have hrest : (s.progressed { made := bs.map polled, step := 0, rx := s.rx }).answers = rest := by
    simp [State.progressed, hans]
  have htrace : (s.progressed { made := bs.map polled, step := 0, rx := s.rx }).trace =
    s.trace ++ bs.map fun b => Event.transaction (polled b) := congrArg (s.trace ++ ·) List.map_map
  refine ⟨⟨_, hrun, rfl, hsp, rfl, rfl, rfl, rfl, hrest, htrace⟩, fun b rest' hb hlast => ?_⟩
  have hstep := step_active_quiet (s := s.progressed _) hr ha hp (hsp.symm ▸ hc)
  rw [effect_of_done p (hrest.trans hlast) rfl fun _ => hb] at hstep
  refine ⟨_, (run_add _ 1 hrun).trans (run_succ_of_next 0 hstep), ?_, ?_, ?_, ?_, ?_⟩
  · rw [settle_sp]; exact congrArg (· + 1) hsp
  · rw [settle_rx]; rfl
  · rw [settle_requests]; rfl
  · rw [settle_answers]; exact congrArg (List.drop 1) (hrest.trans hlast)
  · rw [settle_transactions]
    simp [State.progressed, transactionsOf, answered, ScriptStep.sent, polled]

/-! ### A host loop of polls beside one wait (R107) -/

/-- Busy answers of a poll loop. -/
theorem progress_pollLoop_busy {bs : List Byte} (hbusy : ∀ b ∈ bs, b.getLsbD 0 = true) (rx : List Byte)
    (as : List Answer) :
    progress [.pollLoop] rx (bs.map (fun b => Answer.ok [b]) ++ as) =
      (progress [.pollLoop] rx as).map fun pg => { pg with made := bs.map polled ++ pg.made } := by
  induction bs with
  | nil => simp
  | cons b bs ih =>
    obtain ⟨hb, hbs⟩ := List.forall_mem_cons.mp hbusy
    simp only [List.map_cons, List.cons_append, progress, hb, if_true, ih hbs, Option.map_map]
    rfl

theorem progress_pollLoop_notBusy {b : Byte} (hb : b.getLsbD 0 = false) (rx : List Byte) :
    progress [.pollLoop] rx [Answer.ok [b]] = some { made := [polled b], step := 1, rx := rx } := by
  simp only [progress, hb]
  rfl

theorem op_toWord (op : BitVec 8) (f : Operands) : (f.request op).toWord.extractLsb' 0 8 = op := by
  rw [← ofWord_op, ofWord_toWord]; rfl

section
variable {s : State} {f : Operands} {q : List ReqWord} {bs : List Byte} {b : Byte} {e : TFault} {rest : List Answer}

/-- One wait against busy status bytes and then one that is not (R105). -/
theorem run_wait (hi : s.st = .idle) (hr : s.resetLine = []) (hq : s.requests = (f.request 0x03).toWord :: q)
    (hbusy : ∀ b ∈ bs, b.getLsbD 0 = true) (hb : b.getLsbD 0 = false)
    (hans : s.answers = bs.map (fun b => Answer.ok [b]) ++ Answer.ok [b] :: rest) :
    ∃ t, run (bs.length + 2) s = .next t ∧ t.endedOk 0 [] ∧
      t.trace = s.trace ++ ((bs ++ [b]).map polled).map Event.transaction ++ [Event.reply (.ok 0 [])] ∧ t.requests = q := by
  obtain ⟨⟨-, hwait⟩, -⟩ := waitAndEnableWriteRun
  have hpg : progress [.pollLoop] [] (bs.map (fun b => Answer.ok [b]) ++ [Answer.ok [b]]) =
      some { made := (bs ++ [b]).map polled, step := 1, rx := [] } := by
    rw [progress_pollLoop_busy hbusy, progress_pollLoop_notBusy hb, List.map_append]; rfl
  obtain ⟨hend, -, -⟩ := hwait s _ q _ _ hi hr hq (op_toWord _ f) hpg
  obtain ⟨t, hrun, hended, htrace, -, -, -, -, hrequests, -⟩ := hend rest rfl (by rw [hans, List.append_cons])
  have hlen : 1 + (bs.map (fun b => Answer.ok [b]) ++ [Answer.ok [b]]).length = bs.length + 2 := by simp; omega
  rw [hlen] at hrun
  exact ⟨t, hrun, hended, htrace, hrequests⟩

/-- One wait against busy status bytes and then a fault (R105). -/
theorem run_wait_fault (hi : s.st = .idle) (hr : s.resetLine = []) (hq : s.requests = (f.request 0x03).toWord :: q)
    (hbusy : ∀ b ∈ bs, b.getLsbD 0 = true) (hans : s.answers = bs.map (fun b => Answer.ok [b]) ++ Answer.fault e :: rest) :
    ∃ t, run (bs.length + 2) s = .next t ∧ t.endedFault e 0 ∧
      t.trace = s.trace ++ (bs.map polled).map Event.transaction ++
        [Event.transaction (answered .statusRead (.fault e)), Event.reply (.transportFault e 0)] ∧ t.requests = q := by
  obtain ⟨⟨-, hwait⟩, -⟩ := waitAndEnableWriteRun
  have hpg : progress [.pollLoop] [] (bs.map fun b => Answer.ok [b]) =
      some { made := bs.map polled, step := 0, rx := [] } := by
    simpa [progress_nil] using progress_pollLoop_busy hbusy [] []
  obtain ⟨-, -, hfault⟩ := hwait s _ q _ _ hi hr hq (op_toWord _ f) hpg
  obtain ⟨t, hrun, hended, htrace, -, -, -, -, hrequests, -⟩ := hfault _ e rest rfl hans
  have hlen : 1 + (bs.map fun b => Answer.ok [b]).length + 1 = bs.length + 2 := by simp; omega
  rw [hlen] at hrun
  exact ⟨t, hrun, hended, htrace, hrequests⟩

/-- One poll request against one status byte (R106). -/
theorem run_poll (hi : s.st = .idle) (hr : s.resetLine = []) (hq : s.requests = (f.request 0x04).toWord :: q)
    (hans : s.answers = Answer.ok [b] :: rest) :
    ∃ t, run 2 s = .next t ∧ t.endedOk (if b.getLsbD 0 then 1 else 0) [] ∧
      t.trace = s.trace ++ [Event.transaction (polled b), Event.reply (.ok (if b.getLsbD 0 then 1 else 0) [])] ∧
      t.requests = q ∧ t.resetLine = [] ∧ t.answers = rest := by
  obtain ⟨-, -, -, hpoll⟩ := statusRequestsRun
  obtain ⟨hend, -, -⟩ := hpoll s _ q [Answer.ok [b]] ⟨[polled b], 1, [b]⟩ hi hr hq (op_toWord _ f) rfl
  obtain ⟨t, hrun, hended, htrace, -, -, -, -, hrequests, hline, hrest⟩ := hend rest rfl hans
  exact ⟨t, hrun, hended, htrace.trans (List.append_assoc _ _ _), hrequests, hline, hrest⟩

/-- One poll request against a fault (R106). -/
theorem run_poll_fault (hi : s.st = .idle) (hr : s.resetLine = []) (hq : s.requests = (f.request 0x04).toWord :: q)
    (hans : s.answers = Answer.fault e :: rest) :
    ∃ t, run 2 s = .next t ∧ t.endedFault e 0 ∧
      t.trace = s.trace ++ [Event.transaction (answered .statusRead (.fault e)), Event.reply (.transportFault e 0)] ∧
      t.requests = q := by
  obtain ⟨-, -, -, hpoll⟩ := statusRequestsRun
  obtain ⟨-, -, hfault⟩ := hpoll s _ q [] ⟨[], 0, []⟩ hi hr hq (op_toWord _ f) rfl
  obtain ⟨t, hrun, hended, htrace, -, -, -, -, hrequests, -⟩ := hfault _ e rest rfl hans
  exact ⟨t, hrun, hended, htrace.trans (congrArg (· ++ _) (List.append_nil _)), hrequests⟩

end

/-- Poll requests that read busy each answer 1. -/
theorem run_polls_busy {s : State} {g : Operands} {q : List ReqWord} {bs : List Byte} {rest : List Answer}
    (hi : s.st = .idle) (hr : s.resetLine = []) (hbusy : ∀ b ∈ bs, b.getLsbD 0 = true)
    (hq : s.requests = List.replicate bs.length (g.request 0x04).toWord ++ q)
    (hans : s.answers = bs.map (fun b => Answer.ok [b]) ++ rest) :
    ∃ t, run (2 * bs.length) s = .next t ∧ t.st = .idle ∧ t.requests = q ∧ t.resetLine = [] ∧ t.answers = rest ∧
      transactionsOf t.trace = transactionsOf s.trace ++ bs.map polled ∧
      repliesOf t.trace = repliesOf s.trace ++ List.replicate bs.length (Reply.ok 1 []) := by
  induction bs generalizing s with
  | nil => exact ⟨s, rfl, hi, hq, hr, hans, by simp, by simp⟩
  | cons b bs ih =>
    obtain ⟨hb, hbs⟩ := List.forall_mem_cons.mp hbusy
    obtain ⟨u, hrun, ⟨hidle, -⟩, htrace, hrequests, hline, hrest⟩ := run_poll hi hr hq hans
    rw [if_pos hb] at htrace
    obtain ⟨t, hrun', hidle', hrequests', hline', hrest', htrans, hreplies⟩ := ih hidle hline hbs hrequests hrest
    refine ⟨t, ?_, hidle', hrequests', hline', hrest', ?_, ?_⟩
    · rw [List.length_cons, Nat.mul_succ, Nat.add_comm, run_add 2 _ hrun, hrun']
    · rw [htrans, htrace]; simp [transactionsOf]
    · rw [hreplies, htrace]; simp [repliesOf, List.replicate_succ]

/-- Settles O31: the wait and the polls make the same busy polls, and then the same last one. -/
theorem waitMakesThePollsOfAHostLoop : Obligations.WaitMakesThePollsOfAHostLoop := by
  intro s f g q bs rest last hi hr hbusy hans waiting polling
  have hq : polling.requests = List.replicate bs.length (g.request 0x04).toWord ++ (g.request 0x04).toWord :: q := by
    simp [polling, List.replicate_succ']
  obtain ⟨v, hv, hidle, hrequests, hline, hrest, htrans, hreplies⟩ :=
    run_polls_busy (s := polling) hi hr hbusy hq hans
  refine ⟨fun b hlast hb => ?_, fun e hlast => ?_⟩ <;> subst hlast
  · -- the last poll is not busy
    obtain ⟨t, ht, htended, httrace, htrequests⟩ := run_wait (s := waiting) hi hr rfl hbusy hb hans
    obtain ⟨u, hu, huended, hutrace, hurequests, -⟩ := run_poll hidle hline hrequests hrest
    rw [hb] at huended hutrace
    have htpolls : transactionsOf t.trace = transactionsOf s.trace ++ (bs ++ [b]).map polled := by
      rw [httrace]; simp [transactionsOf, waiting]
    have hupolls : transactionsOf u.trace = transactionsOf s.trace ++ (bs ++ [b]).map polled := by
      rw [hutrace]; simp [htrans, transactionsOf, polling]
    refine ⟨t, u, ht, (run_add _ 2 hv).trans hu, htpolls.trans hupolls.symm, htpolls, htended, huended, htrequests,
      hurequests, ?_, ?_⟩
    · rw [httrace]; simp [repliesOf, waiting]
    · rw [hutrace]; simp [repliesOf, hreplies, polling]
  · -- the last poll faults
    obtain ⟨t, ht, htended, httrace, htrequests⟩ := run_wait_fault (s := waiting) hi hr rfl hbusy hans
    obtain ⟨u, hu, huended, hutrace, hurequests⟩ := run_poll_fault hidle hline hrequests hrest
    refine ⟨t, u, ht, (run_add _ 2 hv).trans hu, ?_, htended, huended, htrequests, hurequests⟩
    rw [httrace, hutrace]
    simp [transactionsOf, htrans, waiting, polling]

end Sys2Proof.Machine
end

section
/-! SUPPORT. The array reads (41_array_read.md R120 to R122): the frame of `read_cmd`, byte by byte. -/

namespace Sys2Proof.Machine

/-- The address bytes that go out are ADDR 23:16, 15:8 and 7:0: bits 31:24 are ignored (00_scope.md R12,
30_encoding.md R73). -/
theorem addrBytes_chipAddr (a : Addr32) :
    addrBytes (chipAddr a) = [a.extractLsb' 16 8, a.extractLsb' 8 8, a.extractLsb' 0 8] := by
  simp [addrBytes, chipAddr, BitVec.extractLsb'_extractLsb'_of_le]

section
variable {cfg : Config}

/-- The fast read is 0x0B, the address bytes and the dummy byte (R120). -/
theorem readFrame_of_fast (h : cfg.readSpeed = .fast) (a : Addr32) (n : Nat) :
    readFrame cfg (chipAddr a) n =
      ⟨.sendRead, [0x0B, a.extractLsb' 16 8, a.extractLsb' 8 8, a.extractLsb' 0 8, 0x00], n, true⟩ := by
  rw [readFrame, h]
  simp only [Frame.arrayRead, Format.cazr, addrBytes_chipAddr]
  rfl

/-- The low-frequency read is 0x03 and the address bytes (R120). -/
theorem readFrame_of_lowFreq (h : cfg.readSpeed = .lowFreq) (a : Addr32) (n : Nat) :
    readFrame cfg (chipAddr a) n =
      ⟨.sendRead, [0x03, a.extractLsb' 16 8, a.extractLsb' 8 8, a.extractLsb' 0 8], n, true⟩ := by
  rw [readFrame, h]
  simp only [Frame.arrayReadLowFreq, Format.car, addrBytes_chipAddr]

end

/-- Settles O24: each script is the one frame that READ_SPEED selects. -/
theorem arrayReadsRun : Obligations.ArrayReadsRun := by
  unfold Obligations.ArrayReadsRun
  intro cmd
  have hcmd (cfg : Config) (f : Operands) (n : Nat) :
      [ScriptStep.frame (readFrame cfg (chipAddr f.addr) n)] = cmd cfg f n := by
    cases h : cfg.readSpeed with
    | fast => simp only [cmd, h, readFrame_of_fast h]
    | lowFreq => simp only [cmd, h, readFrame_of_lowFreq h]
  exact ⟨runsScript_of_planOf (fun _ => rfl) fun cfg f => by rw [← hcmd]; rfl,
    runsScript_of_planOf (fun _ => rfl) fun cfg f => by rw [← hcmd]; rfl⟩

end Sys2Proof.Machine
end

section
/-! SUPPORT. The aligned address of a block erase (42_program_erase.md R137): the mask clears the low bits, which is
rounding down to the granularity. -/

namespace Sys2Proof.Machine

/-- Aligning to `2 ^ k` drops the low `k` bits: the mask has exactly the others. -/
theorem align_two_pow_eq_shift (a : Addr24) (k : Nat) : align a (2 ^ k) = a >>> k <<< k := by
  refine BitVec.eq_of_getLsbD_eq fun i hi => ?_
  have hones : (0xFFFFFF#24).getLsbD i = decide (i < 24) := BitVec.getLsbD_allOnes (v := 24)
  have hlow : (BitVec.ofNat 24 (2 ^ k - 1)).getLsbD i = decide (i < k) := by
    rw [BitVec.getLsbD_ofNat, Nat.testBit_two_pow_sub_one, decide_eq_true hi, Bool.true_and]
  simp only [align, BitVec.getLsbD_and, BitVec.getLsbD_not, hones, hlow, BitVec.getLsbD_shiftLeft,
    BitVec.getLsbD_ushiftRight]
  by_cases hk : i < k
  · simp [hk]
  · simp [hi, hk, Nat.add_sub_cancel' (Nat.le_of_not_lt hk)]

/-- The largest multiple of `2 ^ k` not above the address. -/
theorem toNat_align_two_pow (a : Addr24) (k : Nat) : (align a (2 ^ k)).toNat = a.toNat / 2 ^ k * 2 ^ k := by
  have hle : a.toNat / 2 ^ k * 2 ^ k ≤ a.toNat := Nat.div_mul_le_self _ _
  rw [align_two_pow_eq_shift, BitVec.toNat_shiftLeft, BitVec.toNat_ushiftRight, Nat.shiftLeft_eq,
    Nat.shiftRight_eq_div_pow, Nat.mod_eq_of_lt (hle.trans_lt a.isLt)]

/-! ### The masks of R137 -/

theorem align_4k (a : Addr24) : align a granularity4k = a &&& 0xFFF000 := rfl
theorem align_32k (a : Addr24) : align a granularity32k = a &&& 0xFF8000 := rfl
theorem align_64k (a : Addr24) : align a granularity64k = a &&& 0xFF0000 := rfl

/-- Settles O5: the granularities are 2 ^ 12, 2 ^ 15 and 2 ^ 16. -/
theorem alignRoundsDown : Obligations.AlignRoundsDown := fun a =>
  ⟨⟨align_4k a, toNat_align_two_pow a 12⟩, ⟨align_32k a, toNat_align_two_pow a 15⟩,
    ⟨align_64k a, toNat_align_two_pow a 16⟩⟩

end Sys2Proof.Machine
end

section
/-! SUPPORT. Program and erase requests (42_program_erase.md R130 to R136): WE(cfg), the frame, and for an erase the
completion wait. -/

namespace Sys2Proof.Machine

/-- The program frame is 0x02, the address bytes and the data byte (R130). -/
theorem bytePageProgram_chipAddr (a : Addr32) (d : Byte) :
    Frame.bytePageProgram (chipAddr a) d =
      ⟨.send, [0x02, a.extractLsb' 16 8, a.extractLsb' 8 8, a.extractLsb' 0 8, d], 0, false⟩ := by
  rw [Frame.bytePageProgram, Format.cad, addrBytes_chipAddr]
  rfl

/-- Settles O25. -/
theorem writeByteRuns : Obligations.WriteByteRuns :=
  runsScript_of_planOf (fun _ => rfl) fun cfg f => by
    rw [← writeEnableSeq_eq_weRow, ← bytePageProgram_chipAddr]
    rfl

/-- A request whose plan is an erase plan runs WE(cfg), its frame and the completion wait (R131 to R133). -/
theorem runsScript_of_erasePlan {op : BitVec 8} {mk : Operands → Instr} {frame : Operands → Frame}
    (hdecode : ∀ f, decodeOp op f = .ok (mk f)) (hplan : ∀ cfg f, planOf cfg (mk f) = some (erasePlan cfg (frame f))) :
    runsScript op mk (fun cfg f => weRow cfg ++ [.frame (frame f), .pollLoop]) (fun _ => 0) (fun _ => []) :=
  runsScript_of_planOf hdecode fun cfg f => by
    rw [hplan, ← writeEnableSeq_eq_weRow]
    rfl

/-- Settles O26: the frames' addresses are ADDR 23:0 under the masks of R137. -/
theorem erasesRun : Obligations.ErasesRun :=
  ⟨runsScript_of_erasePlan (fun _ => rfl) fun _ _ => rfl,
    runsScript_of_erasePlan (fun _ => rfl) fun _ f => by rw [planOf, planErase4kBlock, align_4k]; rfl,
    runsScript_of_erasePlan (fun _ => rfl) fun _ f => by rw [planOf, planErase32kBlock, align_32k]; rfl,
    runsScript_of_erasePlan (fun _ => rfl) fun _ f => by rw [planOf, planErase64kBlock, align_64k]; rfl⟩

end Sys2Proof.Machine
end

section
/-! SUPPORT. The host's view of the chip over a completed script (70_reset_and_hazards.md R201, R202; log entries 18 and
21): step by step, whatever the answers. -/

namespace Sys2Proof.Machine

/-- The chip is awake, busy or not. -/
def ChipView.awake (v : ChipView) : Prop := v = .ready ∨ v = .maybeBusy

/-- A step whose completion leaves an awake chip awake, with a view that no received byte changes: a poll loop, or a frame
that is neither a status read nor SLEEP. -/
def ScriptStep.keepsAwake : ScriptStep → Prop
  | .frame f => f.tx.headD 0 ≠ 0x05 ∧ f.tx.headD 0 ≠ 0xB9
  | .pollLoop => True

/-- The view of an awake chip after a completed step: a poll loop ends with BUSY = 0 (R102). -/
def ScriptStep.viewAfter (v : ChipView) : ScriptStep → ChipView
  | .frame f => v.afterTransaction (answered f (.ok []))
  | .pollLoop => .ready

/-! ### One transaction -/

/-- The bytes a frame receives do not matter to the view, unless it reads the status. -/
theorem afterTransaction_ok {f : Frame} (h : f.tx.headD 0 ≠ 0x05) (v : ChipView) (bs : List Byte) :
    v.afterTransaction (answered f (.ok bs)) = v.afterTransaction (answered f (.ok [])) := by
  simp only [ChipView.afterTransaction, answered]
  split
  case h_1 heq => exact absurd heq h
  all_goals rfl

/-- Only SLEEP puts an awake chip to sleep. -/
theorem afterTransaction_awake {v : ChipView} (hv : v.awake) {f : Frame} (h : f.tx.headD 0 ≠ 0xB9) (bs : List Byte) :
    (v.afterTransaction (answered f (.ok bs))).awake := by
  simp only [ChipView.afterTransaction, answered]
  have hoperation : ChipView.awake (if v = .ready then .maybeBusy else v) := by
    split
    · exact .inr rfl
    · exact hv
  split
  case h_1 => -- a status read
    rcases hv with rfl | rfl <;> dsimp only <;> split <;> simp [ChipView.awake]
  case h_2 => exact .inr rfl -- WAKE
  case h_3 heq => exact absurd heq h
  case h_10 => exact hv -- a frame that starts no operation
  all_goals exact hoperation

/-- A status read of an awake chip tells whether it is busy (R53). -/
theorem afterTransaction_poll {v : ChipView} (hv : v.awake) {bs : List Byte} (hlen : bs.length = 1) :
    v.afterTransaction (answered ScriptStep.pollLoop.sent (.ok bs)) =
      if busy (firstByte bs) then .maybeBusy else .ready := by
  obtain ⟨b, rfl⟩ := List.length_eq_one_iff.mp hlen
  rcases hv with rfl | rfl <;> rfl

/-- A completed step leaves an awake chip awake, with the view that the step alone decides. -/
theorem afterTransaction_done {v : ChipView} (hv : v.awake) {c : ScriptStep} (hc : c.keepsAwake) {bs : List Byte}
    (hlen : bs.length = c.sent.n) (hb : c = .pollLoop → busy (firstByte bs) = false) :
    v.afterTransaction (answered c.sent (.ok bs)) = c.viewAfter v ∧ (c.viewAfter v).awake := by
  cases c with
  | frame f => exact ⟨afterTransaction_ok hc.1 v bs, afterTransaction_awake hv hc.2 []⟩
  | pollLoop =>
    refine ⟨?_, .inl rfl⟩
    rw [afterTransaction_poll hv hlen, hb rfl]
    rfl

/-! ### A completed script -/

/-- What the host may conclude after a completed script, from the script alone: by induction on the answers, a busy poll
leaves the chip awake at the same step, and any other answer completes the step. -/
theorem after_made {σ : List ScriptStep} {rx : List Byte} {as : List Answer} {pg : Progress} {v : ChipView}
    (hv : v.awake) (hσ : ∀ c ∈ σ, c.keepsAwake) (hpg : progress σ rx as = some pg) (hend : pg.step = σ.length) :
    v.after (pg.made.map .transaction) = σ.foldl ScriptStep.viewAfter v := by
  induction as generalizing σ rx pg v with
  | nil =>
    cases (progress_nil σ rx).symm.trans hpg
    rw [List.length_eq_zero_iff.mp hend.symm]
    rfl
  | cons a as ih =>
    obtain ⟨c, ss, bs, pg', rfl, -, hlen, ⟨rfl, hb, hpg', rfl⟩ | ⟨hb, hpg', rfl⟩⟩ := progress_cons hpg
    · -- a busy poll
      have hview : v.afterTransaction (answered ScriptStep.pollLoop.sent (.ok bs)) = .maybeBusy := by
        rw [afterTransaction_poll hv hlen, if_pos hb]
      show (v.afterTransaction _).after (pg'.made.map .transaction) = _
      rw [hview]
      exact ih (.inr rfl) hσ hpg' hend
    · -- a step done
      obtain ⟨hc, hss⟩ := List.forall_mem_cons.mp hσ
      obtain ⟨hview, hawake⟩ := afterTransaction_done hv hc hlen hb
      show (v.afterTransaction _).after (pg'.made.map .transaction) = _
      rw [hview, List.foldl_cons]
      exact ih hawake hss hpg' (Nat.succ_inj.mp hend)

/-! ### The gated scripts -/

theorem keepsAwake_frame {f : Frame} {opc : Byte} (hf : f.tx.headD 0 = opc) (hopc : opc ≠ 0x05 ∧ opc ≠ 0xB9) :
    (ScriptStep.frame f).keepsAwake := by
  subst hf
  exact hopc

theorem keepsAwake_of_mem_writeEnableSeq {cfg : Config} {c : ScriptStep} (h : c ∈ writeEnableSeq cfg) :
    c.keepsAwake := by
  have hstep : c = .pollLoop ∨ c = .frame .writeEnable ∨ c = .frame (.statusWrite cfg.wrsrValue) := by
    rw [writeEnableSeq_eq_weRow, weRow] at h
    split at h <;> simp only [List.mem_cons, List.not_mem_nil, or_false] at h <;> tauto
  rcases hstep with rfl | rfl | rfl
  · trivial
  · exact keepsAwake_frame (opc := 0x06) rfl (by decide)
  · exact keepsAwake_frame (opc := 0x01) rfl (by decide)

/-- WE(cfg) ends with a poll loop, so it leaves the view ready (R110). -/
theorem viewAfter_writeEnableSeq (cfg : Config) (v : ChipView) :
    (writeEnableSeq cfg).foldl ScriptStep.viewAfter v = .ready := by
  rw [writeEnableSeq, List.foldl_append]
  rfl

/-- A completed gated request: the steps after WE(cfg) decide the view of an awake chip. -/
theorem after_made_gated {cfg : Config} {rest : List ScriptStep} {rx : List Byte} {as : List Answer} {pg : Progress}
    {v : ChipView} (hv : v.awake) (hrest : ∀ c ∈ rest, c.keepsAwake)
    (hpg : progress (writeEnableSeq cfg ++ rest) rx as = some pg) (hend : pg.step = (writeEnableSeq cfg ++ rest).length) :
    v.after (pg.made.map .transaction) = rest.foldl ScriptStep.viewAfter .ready := by
  have hσ : ∀ c ∈ writeEnableSeq cfg ++ rest, c.keepsAwake := fun c hc =>
    (List.mem_append.mp hc).elim keepsAwake_of_mem_writeEnableSeq (hrest c)
  rw [after_made hv hσ hpg hend, List.foldl_append, viewAfter_writeEnableSeq]

/-- The plan of each erase request is an erase plan, of a frame that leaves the chip awake (R132 to R136). -/
theorem planOf_erase {cfg : Config} {f : Operands} {i : Instr} {p : Plan}
    (hi : i = .chipErase f ∨ i = .erase4kBlock f ∨ i = .erase32kBlock f ∨ i = .erase64kBlock f)
    (hp : planOf cfg i = some p) : ∃ e, p = erasePlan cfg e ∧ (ScriptStep.frame e).keepsAwake := by
  rcases hi with rfl | rfl | rfl | rfl <;> cases hp
  · exact ⟨_, rfl, keepsAwake_frame (opc := 0x60) rfl (by decide)⟩
  · exact ⟨_, rfl, keepsAwake_frame (opc := 0x20) rfl (by decide)⟩
  · exact ⟨_, rfl, keepsAwake_frame (opc := 0x52) rfl (by decide)⟩
  · exact ⟨_, rfl, keepsAwake_frame (opc := 0xD8) rfl (by decide)⟩

/-- Settles O38: an erase ends with a poll loop, write_byte with the program frame to a ready chip. -/
theorem completedErasesLeaveTheChipReady : Obligations.CompletedErasesLeaveTheChipReady := by
  intro cfg f v as p pg hv hpg hend
  refine ⟨fun i hi hp => ?_, fun hp => ?_⟩
  · obtain ⟨e, rfl, he⟩ := planOf_erase hi hp
    have hrest : ∀ c ∈ [ScriptStep.frame e, .pollLoop], c.keepsAwake := by simpa using ⟨he, trivial⟩
    exact after_made_gated hv hrest hpg hend
  · cases hp
    have hprogram : (ScriptStep.frame (.bytePageProgram (chipAddr f.addr) f.data)).keepsAwake :=
      keepsAwake_frame (opc := 0x02) rfl (by decide)
    have hview := after_made_gated hv (List.forall_mem_singleton.mpr hprogram) hpg hend
    exact ⟨hview, by rw [hview]; rfl⟩

end Sys2Proof.Machine
end

section
/-! SUPPORT. Power requests (43_power.md R150, R151): each plan is its one frame, whatever the configuration. -/

namespace Sys2Proof.Machine

/-- Settles O27: the scripts are read off the plans, which hold the SLEEP and the WAKE frame alone. -/
theorem powerRequestsRun : Obligations.PowerRequestsRun := by
  refine ⟨runsScript_of_planOf (fun _ => rfl) fun cfg f => ?_, runsScript_of_planOf (fun _ => rfl) fun cfg f => ?_⟩
  · show planOf cfg (.sleep f) = some planSleep
    rfl
  · show planOf cfg (.wakeup f) = some planWakeup
    rfl

end Sys2Proof.Machine
end

section
/-! SUPPORT. Identification requests (44_identify.md R160, R161): each plan is its one frame, and its data is what the frame
keeps. -/

namespace Sys2Proof.Machine

/-- The device ID is read with 0x9F alone, for 2 bytes that are kept (R160). -/
theorem planReadDeviceId_eq :
    planReadDeviceId =
      { script := [.frame ⟨.sendRead, [0x9F], 2, true⟩], value := fun _ => 0, data := fun rx => rx } := rfl

/-- The unique ID is read with 0x4B alone, with no dummy bytes, for 8 bytes that are kept (R161). -/
theorem planReadUniqueId_eq :
    planReadUniqueId =
      { script := [.frame ⟨.sendRead, [0x4B], 8, true⟩], value := fun _ => 0, data := fun rx => rx } := rfl

/-- Settles O28: neither plan depends on the configuration, the operands or the bytes that arrive. -/
theorem identificationRequestsRun : Obligations.IdentificationRequestsRun :=
  ⟨runsScript_of_planOf (fun _ => rfl) fun _ _ => congrArg some planReadDeviceId_eq,
    runsScript_of_planOf (fun _ => rfl) fun _ _ => congrArg some planReadUniqueId_eq⟩

end Sys2Proof.Machine
end

section
/-! SUPPORT. How a request ends without a result (60_exceptions.md): an illegal request at its accept (R172), a transport
fault at its step (R171), and a hang, which only a reset ends (R178). -/

namespace Sys2Proof

/-- OP 0x00 and 0x11 to 0xFF are reserved (30_encoding.md R78). -/
theorem decodeOp_reserved {op : BitVec 8} (h : op = 0x00 ∨ 0x11 ≤ op.toNat) (f : Operands) :
    decodeOp op f = .error (.reservedOp op) := by
  unfold decodeOp
  split
  case h_17 => rfl
  all_goals exact absurd h (by decide)

theorem decodeRequest_reserved {w : ReqWord} (h : w.extractLsb' 0 8 = 0x00 ∨ 0x11 ≤ (w.extractLsb' 0 8).toNat) :
    decodeRequest w = .error (.reservedOp (w.extractLsb' 0 8)) :=
  decodeOp_reserved h _

end Sys2Proof

namespace Sys2Proof.Machine

/-! ### An illegal request (R172) -/

/-- Settles O13: a word that does not decode has no plan, so its accept is `acceptIllegal`. -/
theorem reservedOpIsAnIllegalRequest : Obligations.ReservedOpIsAnIllegalRequest := by
  intro s w q hi hr hq hreserved
  have hdecode := decodeRequest_reserved hreserved
  refine ⟨hdecode, _, step_acceptIllegal hr hi hq (requestPlan_none_of_error hdecode s.cfg), ?_⟩
  exact ⟨⟨rfl, rfl, rfl, rfl, rfl⟩, rfl, rfl, rfl, rfl, rfl, rfl⟩

/-! ### A transport fault (R171) -/

/-- Settles O17: the fault case of `stepEffect_effect`, for whatever step is the current one. -/
theorem transportFaultEndsTheRequest : Obligations.TransportFaultEndsTheRequest := by
  intro s c e ha hr hcur hfault
  obtain ⟨p, hp, hc⟩ := plan_of_currentStep hcur
  obtain ⟨⟨hreq, hcfg, -⟩, heffect⟩ := stepEffect_effect s.sampled p c
  simp only [sampled_nextAnswer, hfault] at heffect
  obtain ⟨hended, hsp, hrx, htrace⟩ := heffect
  exact ⟨_, step_active hr ha hp hc, hended, hreq, hsp, hrx, hcfg, htrace⟩

/-! ### A hang (R178) -/

/-- A poll that reads busy changes nothing of the block but the reset line it has sampled. -/
theorem step_busyPoll {s : State} {p : Plan} {b : Byte} {as : List Answer} (hr : s.resetAsserted = false) (ha : s.active)
    (hp : requestPlan s.req s.cfg = some p) (hc : p.script[s.sp.toNat]? = some .pollLoop) (hb : b.getLsbD 0 = true)
    (hans : s.answers = .ok [b] :: as) :
    step s = .next (s.sampled.progressed { made := [polled b], step := 0, rx := s.rx }) := by
  rw [step_active hr ha hp hc, effect_of_busy p (s := s.sampled) hans rfl hb]
  rfl

/-- `run_busyPolls` under a reset line that is quiet for the polls alone: each samples it once. -/
theorem run_busyPolls_until {s : State} {p : Plan} {bs : List Byte} {rest : List Answer} (line : List Bool)
    (ha : s.active) (hp : requestPlan s.req s.cfg = some p) (hc : p.script[s.sp.toNat]? = some .pollLoop)
    (hbusy : ∀ b ∈ bs, b.getLsbD 0 = true) (hans : s.answers = bs.map (fun b => Answer.ok [b]) ++ rest) :
    run bs.length { s with resetLine := List.replicate bs.length false ++ line } =
      .next ({ s with resetLine := line }.progressed { made := bs.map polled, step := 0, rx := s.rx }) := by
  induction bs generalizing s with
  | nil => exact congrArg _ (progressed_nil { s with resetLine := line }).symm
  | cons b bs ih =>
    obtain ⟨hb, hbs⟩ := List.forall_mem_cons.mp hbusy
    have hstep := step_busyPoll (s := { s with resetLine := List.replicate (b :: bs).length false ++ line })
      rfl ha hp hc hb hans
    have hsp : (s.progressed { made := [polled b], step := 0, rx := s.rx }).sp = s.sp := BitVec.add_zero _
    have hrest : s.answers.drop 1 = bs.map (fun b => Answer.ok [b]) ++ rest := by rw [hans]; rfl
    refine (run_succ_of_next bs.length hstep).trans ?_
    refine (ih (s := s.progressed { made := [polled b], step := 0, rx := s.rx }) ha hp (hsp.symm ▸ hc) hbs hrest).trans ?_
    exact congrArg _ (progressed_after { s with resetLine := line } (polled b) 0 s.rx _)

/-- Settles O30: the polls by `run_busyPolls_until`; then the line is asserted, and the step is a reset. -/
theorem onlyAResetEndsAHang : Obligations.OnlyAResetEndsAHang := by
  intro s bs rest ha hr hcur hbusy hans
  obtain ⟨p, hp, hc⟩ := plan_of_currentStep hcur
  have hrun := run_busyPolls_until [true] ha hp hc hbusy hans
  rw [← hr] at hrun
  have hsp : (s.progressed { made := bs.map polled, step := 0, rx := s.rx }).sp = s.sp := BitVec.add_zero _
  refine ⟨⟨_, hrun, rfl, hsp, rfl, rfl⟩, _,
    (run_add _ 1 hrun).trans (run_succ_of_next 0 (step_reset rfl)), rfl, rfl, rfl, rfl, ?_, ?_⟩
  · simp [State.progressed, repliesOf]
  · simp [State.progressed, transactionsOf, polled]

end Sys2Proof.Machine
end

section
/-! SUPPORT. A reset, whatever the block was doing (70_reset_and_hazards.md R190, R191). -/

namespace Sys2Proof.Machine

/-- Settles O32: the step is `blockReset` of the sampled state (`step_reset`); the rest are the fields of `blockReset`,
`sampled` and `State.reset`. -/
theorem resetDropsTheRequest : Obligations.ResetDropsTheRequest := by
  refine ⟨fun s line hline => ?_, rfl, rfl, rfl, rfl, rfl⟩
  have hasserted : s.resetAsserted = true := by rw [State.resetAsserted, hline]; rfl
  have hsampled : (blockReset s.sampled).resetLine = line := by simp [hline]
  exact ⟨_, step_reset hasserted, blockReset_st _, blockReset_sp _, blockReset_rx _, blockReset_valid _,
    blockReset_cfg _, blockReset_requests _, blockReset_answers _, hsampled, blockReset_trace _⟩

end Sys2Proof.Machine
end

section
/-! SUPPORT. A chip frame while the block is IDLE (40_status_wait.md §1; log entry 13): no step is taken, so nothing
happens. -/

namespace Sys2Proof.Machine

theorem runFrame_idle {s : State} (hi : s.st = .idle) (f : Frame) : runFrame f s = .next s := by
  simp only [runFrame, hi]

theorem runStatusRead_idle {s : State} (hi : s.st = .idle) : runStatusRead s = .next s := by
  simp only [runStatusRead, hi]

/-- Settles O9: a chip-frame row runs as STATUSREAD or as its frame (`exec_of_encode_frame`), and both answer the same
state while IDLE. -/
theorem framesDoNothingWhileIdle : Obligations.FramesDoNothingWhileIdle := by
  intro s i f hi henc
  rcases exec_of_encode_frame henc s with rfl | hexec
  · exact runStatusRead_idle hi
  · exact hexec.trans (runFrame_idle hi f)

end Sys2Proof.Machine
end
